-- ==== Sys2Proof/Word.lean ====
section
/-! DEFINITION. The bit-vector types of the block: bytes, half words (the dimension operands) and register
words (00_scope.md R7). -/
namespace Sys2Proof

/-- One byte of memory (20_memory.md R50). -/
abbrev Byte := BitVec 8

/-- A 16-bit quantity: a dimension operand or a header dimension (00_scope.md R7). -/
abbrev Half := BitVec 16

/-- A 32-bit register value, memory address or command word (00_scope.md R7). -/
abbrev Word := BitVec 32

end Sys2Proof
end

