-- ==== Sys2Proof/Syntax.lean ====
section
/-! DEFINITION. The syntax of the block: the 18 legal command words (30_encoding.md R73, spec/opcode_table.json), the format
codes (10_state.md R36), the block kinds (42_block_decompress.md R159), the registers (10_state.md R23) and the host's
accesses (10_state.md R22, 30_encoding.md R77). -/
namespace Sys2Proof

/-- One constructor per row of spec/opcode_table.json (30_encoding.md R73). No row has an operand: the FMT field of a CANVAS
word is fixed by its row (R71), and every other operand is a register (R72). -/
inductive Instr where
  | parseHdr
  | resolveFmt
  | canvasGray
  | canvasRgb
  | canvasRgba
  | canvasBgra
  | canvasDxt1
  | canvasDxt3
  | canvasDxt5
  | log2
  | swzOffset
  | deswizzle
  | dxt1Block
  | dxt3Block
  | dxt5Block
  | dxt1Surface
  | dxt3Surface
  | dxt5Surface
  deriving DecidableEq, Repr

/-- Why a command word is illegal, the four cases of 30_encoding.md R74. -/
inductive IllegalWord where
  /-- (a) OP is none of the twelve opcodes. -/
  | unassignedOpcode
  /-- (b) a reserved bit of [31:11] is set. -/
  | reservedBits
  /-- (c) FMT is not 0 on a command other than CANVAS. -/
  | strayFormat
  /-- (d) FMT is 0 on CANVAS. -/
  | canvasWithoutFormat
  deriving DecidableEq, Repr

/-- The seven formats of the format table (10_state.md R36). -/
inductive Format where
  | gray
  | rgb
  | rgba
  | bgra
  | dxt1
  | dxt3
  | dxt5
  deriving DecidableEq, Repr

/-- The kind of a decoder command (42_block_decompress.md R159). -/
inductive BlockKind where
  | dxt1
  | dxt3
  | dxt5
  deriving DecidableEq, Repr

/-- The registers of the register map (10_state.md R23). -/
inductive Reg where
  | cmd
  | status
  | srcAddr
  | srcLen
  | dstAddr
  | dstLen
  | width
  | height
  | opa
  | opb
  | result
  | fmt
  | canvasDim
  | levelBytes
  | hdrDsize
  | hdrUnk1
  | hdrDim
  | hdrInfo
  deriving DecidableEq, Repr

/-- One access of the host (or the platform) to the block. `bits` is the access width; the block answers only 32-bit accesses at
multiples of 4 (10_state.md R22 a). `memWrite` is a store of one byte by the host, which owns the memory (R20, log 4);
`reset` is the platform's reset (70_reset_and_hazards.md R231, log 6). -/
inductive HostAccess where
  | regWrite (offset : BitVec 8) (bits : Nat) (value : Word)
  | regRead (offset : BitVec 8) (bits : Nat)
  | memWrite (addr : Word) (value : Byte)
  | reset
  deriving DecidableEq, Repr

end Sys2Proof
end

