-- ==== Sys2Proof/Config.lean ====
section
/-! DEFINITION. The implementation parameters of 00_scope.md R8, as plain data (their defaults: Machine/Params.lean). A state carries
its parameters (log 3), so that a statement over every state is a statement over every choice of them. -/
namespace Sys2Proof

/-- `EXPAND565` (42_block_decompress.md R151): how a 5- or 6-bit channel becomes 8 bits. -/
inductive Expand565 where
  | replicate
  | round
  | truncate
  | shift
  deriving DecidableEq, Repr

/-- `BLEND_TIE` (42_block_decompress.md R152): how the half blend rounds an exact .5. -/
inductive BlendTie where
  | halfUp
  | halfEven
  | truncate
  deriving DecidableEq, Repr

/-- `SWZ_NONPOW2_H` (41_swizzle.md R137): a power-of-two width with a canvas height that is none. -/
inductive SwzNonpow2H where
  | literal
  | refuse
  deriving DecidableEq, Repr

/-- `OUT_ORDER` (20_memory.md R53): byte order of a decoded pixel. -/
inductive OutOrder where
  | rgba
  | bgra
  deriving DecidableEq, Repr

/-- A range of byte addresses `base .. base + size - 1`. -/
structure Region where
  base : Nat
  size : Nat
  deriving DecidableEq, Repr

/-- The parameters of 00_scope.md R8. `memAdmit` writes the predicate `MemAdmit` as a list of address ranges: a byte is
admitted when some range holds it. Every set of 32-bit addresses is such a list, so nothing is lost. -/
structure Config where
  encGray : Byte
  encRgb : Byte
  encRgba : Byte
  encBgra : Byte
  expand565 : Expand565
  blendTie : BlendTie
  swzNonpow2H : SwzNonpow2H
  outOrder : OutOrder
  memAdmit : List Region
  deriving DecidableEq, Repr

/-- `REG_BASE` (20_memory.md R60): where the host sees the register window. OPEN, the platform's choice; no rule of the
spec and no definition of the model reads it (log 7). -/
opaque Config.regBase : Word

end Sys2Proof
end

