-- ==== Sys2Proof/WellFormed.lean ====
section
/-! DEFINITION. What is well formed: an instruction (always: no row has an operand field), a host access (10_state.md R22 a) and a
choice of parameters (00_scope.md R8). -/
namespace Sys2Proof

/-- Every instruction is well formed: a row of the opcode table has no operand (30_encoding.md R71, R72). -/
def Instr.wf : Instr → Bool
  | .parseHdr => true
  | .resolveFmt => true
  | .canvasGray => true
  | .canvasRgb => true
  | .canvasRgba => true
  | .canvasBgra => true
  | .canvasDxt1 => true
  | .canvasDxt3 => true
  | .canvasDxt5 => true
  | .log2 => true
  | .swzOffset => true
  | .deswizzle => true
  | .dxt1Block => true
  | .dxt3Block => true
  | .dxt5Block => true
  | .dxt1Surface => true
  | .dxt3Surface => true
  | .dxt5Surface => true

/-- A register access is well formed when it is 32 bits wide at a multiple of 4 (10_state.md R22 a). -/
def HostAccess.wf : HostAccess → Bool
  | .regWrite offset bits _ => bits == 32 && offset.toNat % 4 == 0
  | .regRead offset bits => bits == 32 && offset.toNat % 4 == 0
  | .memWrite _ _ => true
  | .reset => true

/-- "The four `ENC_*` values must be pairwise distinct" (00_scope.md R8). -/
def Config.encDistinct (c : Config) : Bool :=
  c.encGray != c.encRgb && c.encGray != c.encRgba && c.encGray != c.encBgra &&
    c.encRgb != c.encRgba && c.encRgb != c.encBgra && c.encRgba != c.encBgra

/-- `MemAdmit` is a predicate on 32-bit addresses (00_scope.md R8): no range reaches past the address space. -/
def Config.admitInSpace (c : Config) : Bool :=
  c.memAdmit.all fun r => decide (r.base + r.size ≤ 4294967296)

/-- The conditions on the parameters (00_scope.md R8). -/
def Config.wf (c : Config) : Bool := c.encDistinct && c.admitInSpace

end Sys2Proof
end

