-- ==== Sys2Proof/Decode.lean ====
section
/-! DEFINITION. The command-word decoder (30_encoding.md R75), total on all 2^32 words and rejecting by the case of R74 that
holds, and after it the encoder (R70, R73). -/
namespace Sys2Proof

/-- OP, bits [7:0] of a command word (30_encoding.md R70). -/
def cmdOp (w : Word) : BitVec 8 := w.extractLsb' 0 8

/-- FMT, bits [10:8] of a command word (30_encoding.md R70). -/
def cmdFmt (w : Word) : BitVec 3 := w.extractLsb' 8 3

/-- RSV, bits [31:11] of a command word (30_encoding.md R70). -/
def cmdRsv (w : Word) : BitVec 21 := w.extractLsb' 11 21

/-- The CANVAS rows by their FMT field; 0 is illegal (30_encoding.md R71, R74 d). -/
def decodeCanvas (fmt : BitVec 3) : Except IllegalWord Instr :=
  match fmt with
  | 1#3 => .ok .canvasGray
  | 2#3 => .ok .canvasRgb
  | 3#3 => .ok .canvasRgba
  | 4#3 => .ok .canvasBgra
  | 5#3 => .ok .canvasDxt1
  | 6#3 => .ok .canvasDxt3
  | 7#3 => .ok .canvasDxt5
  | _ => .error .canvasWithoutFormat

/-- The commands other than CANVAS by their opcode (30_encoding.md R73). -/
def decodeOp (op : BitVec 8) : Except IllegalWord Instr :=
  match op with
  | 0x01#8 => .ok .parseHdr
  | 0x02#8 => .ok .resolveFmt
  | 0x04#8 => .ok .log2
  | 0x05#8 => .ok .swzOffset
  | 0x06#8 => .ok .deswizzle
  | 0x10#8 => .ok .dxt1Block
  | 0x11#8 => .ok .dxt3Block
  | 0x12#8 => .ok .dxt5Block
  | 0x18#8 => .ok .dxt1Surface
  | 0x19#8 => .ok .dxt3Surface
  | 0x1A#8 => .ok .dxt5Surface
  | _ => .error .unassignedOpcode

/-- `decode` (30_encoding.md R75), with the case of R74 that makes a word illegal. -/
def decode (w : Word) : Except IllegalWord Instr :=
  if cmdRsv w ≠ 0 then .error .reservedBits
  else if cmdOp w = 0x03 then decodeCanvas (cmdFmt w)
  else if cmdFmt w ≠ 0 then
    match decodeOp (cmdOp w) with
    | .ok _ => .error .strayFormat
    | .error e => .error e
  else decodeOp (cmdOp w)

/-- OP of each row (30_encoding.md R73). -/
def Instr.op : Instr → BitVec 8
  | .parseHdr => 0x01
  | .resolveFmt => 0x02
  | .canvasGray => 0x03
  | .canvasRgb => 0x03
  | .canvasRgba => 0x03
  | .canvasBgra => 0x03
  | .canvasDxt1 => 0x03
  | .canvasDxt3 => 0x03
  | .canvasDxt5 => 0x03
  | .log2 => 0x04
  | .swzOffset => 0x05
  | .deswizzle => 0x06
  | .dxt1Block => 0x10
  | .dxt3Block => 0x11
  | .dxt5Block => 0x12
  | .dxt1Surface => 0x18
  | .dxt3Surface => 0x19
  | .dxt5Surface => 0x1A

/-- FMT of each row: the format code on a CANVAS row, 0 elsewhere (30_encoding.md R70, R71). -/
def Instr.fmtField : Instr → BitVec 3
  | .parseHdr => 0
  | .resolveFmt => 0
  | .canvasGray => 1
  | .canvasRgb => 2
  | .canvasRgba => 3
  | .canvasBgra => 4
  | .canvasDxt1 => 5
  | .canvasDxt3 => 6
  | .canvasDxt5 => 7
  | .log2 => 0
  | .swzOffset => 0
  | .deswizzle => 0
  | .dxt1Block => 0
  | .dxt3Block => 0
  | .dxt5Block => 0
  | .dxt1Surface => 0
  | .dxt3Surface => 0
  | .dxt5Surface => 0

/-- The command word of an instruction: RSV = 0, FMT, OP (30_encoding.md R70). -/
def encode (i : Instr) : Word := 0#21 ++ (i.fmtField ++ i.op)

/-- The decoder on an instruction given as a number of `nbits` bits, bit 0 the least significant of the command word. A command
word is one 32-bit value (R70), so a number that does not fit 32 bits is no command word. -/
def decodeTableWord (nbits w : Nat) : Option Instr :=
  let v := w % 2 ^ nbits
  if v < 4294967296 then
    match decode (BitVec.ofNat 32 v) with
    | .ok i => some i
    | .error _ => none
  else none

/-! The decoding of every row, from the words of 30_encoding.md R73. -/

theorem decode_parseHdr : decode 0x00000001 = .ok .parseHdr := by decide
theorem decode_resolveFmt : decode 0x00000002 = .ok .resolveFmt := by decide
theorem decode_canvasGray : decode 0x00000103 = .ok .canvasGray := by decide
theorem decode_canvasRgb : decode 0x00000203 = .ok .canvasRgb := by decide
theorem decode_canvasRgba : decode 0x00000303 = .ok .canvasRgba := by decide
theorem decode_canvasBgra : decode 0x00000403 = .ok .canvasBgra := by decide
theorem decode_canvasDxt1 : decode 0x00000503 = .ok .canvasDxt1 := by decide
theorem decode_canvasDxt3 : decode 0x00000603 = .ok .canvasDxt3 := by decide
theorem decode_canvasDxt5 : decode 0x00000703 = .ok .canvasDxt5 := by decide
theorem decode_log2 : decode 0x00000004 = .ok .log2 := by decide
theorem decode_swzOffset : decode 0x00000005 = .ok .swzOffset := by decide
theorem decode_deswizzle : decode 0x00000006 = .ok .deswizzle := by decide
theorem decode_dxt1Block : decode 0x00000010 = .ok .dxt1Block := by decide
theorem decode_dxt3Block : decode 0x00000011 = .ok .dxt3Block := by decide
theorem decode_dxt5Block : decode 0x00000012 = .ok .dxt5Block := by decide
theorem decode_dxt1Surface : decode 0x00000018 = .ok .dxt1Surface := by decide
theorem decode_dxt3Surface : decode 0x00000019 = .ok .dxt3Surface := by decide
theorem decode_dxt5Surface : decode 0x0000001A = .ok .dxt5Surface := by decide

end Sys2Proof
end

