-- ==== Sys2Proof/Machine/Params.lean ====
section
/-! DEFINITION. What `State.reset` and memory take from outside the reset rules: the default of every parameter and what an unlisted byte of
memory reads as. -/
namespace Sys2Proof

/-- The default of every parameter, the `default` column of 00_scope.md R8. DESIGN CHOICE (log 3), unsafe for a claim about a
run from reset only: the defaults are the spec's own choice, and the `ENC_*` values are general knowledge (G1). -/
def Config.specDefault : Config where
  encGray := 0x01
  encRgb := 0x02
  encRgba := 0x04
  encBgra := 0x0C
  expand565 := .replicate
  blendTie := .halfUp
  swzNonpow2H := .literal
  outOrder := .rgba
  memAdmit := [⟨0, 4294967296⟩]

namespace Machine

/-- What a byte of memory that is not listed reads as. DESIGN CHOICE (log 2), unsafe: the spec states no start memory; its programs
start with "all other memory is 0" (95_test_vectors.md L3). -/
def unlistedByte : Byte := 0

end Machine

end Sys2Proof
end

