-- ==== Sys2Proof/Machine/State.lean ====
section
/-! DEFINITION. The state of the machine: the registers of 10_state.md R23, memory (20_memory.md R50), the parameters (00_scope.md
R8) and the host's accesses and read values (30_encoding.md R77, 70_reset_and_hazards.md R238); the error kinds, the faults and
the refusals. -/
namespace Sys2Proof.Machine

/-- The bytes of memory that do not read `unlistedByte`, by rising address (20_memory.md R50). -/
abbrev Memory := List Host.Cell

/-- The error kinds of 60_exceptions.md R201. -/
inductive CmdError where
  | invalidDimensions
  | unsupportedEncoding
  | truncatedData
  | illegalCommand
  | outputTooSmall
  | badRegion
  deriving DecidableEq, Repr

/-- Why the machine stops. -/
inductive Fault where
  /-- Raised by a command that reads or writes memory, at its admit line, when a byte of its regions is not admitted: the command is
  stuck and has no step (20_memory.md R56). Safe: nothing is claimed of what follows. -/
  | stuckUnadmitted
  /-- Raised by a host store to a byte the platform's memory does not admit (20_memory.md R56, log 4). Safe. -/
  | hostStoreUnadmitted
  deriving DecidableEq, Repr

/-- Why the model gives no meaning. -/
inductive Refusal where
  /-- Raised by `exec` for an instruction without a meaning. No arm answers it in this model. Safe. -/
  | notModelled (mnemonic : String)
  /-- Raised by DESWIZZLE when SWZ_NONPOW2_H = refuse, the width is a power of two and the canvas height is not (41_swizzle.md R137).
  Safe: "toward unprovable". -/
  | nonpow2Height
  /-- Raised by a register access that is not 32 bits wide at a multiple of 4 (10_state.md R22 a). Safe. -/
  | registerAccess
  deriving DecidableEq, Repr

/-- The state. The first field and the last two are the model's own (log 3, log 1, log 5); `mem` is memory; every other field is
the register of 10_state.md R23 with its name and the width of R46. -/
structure State where
  /-- The parameters of 00_scope.md R8; no step changes them. -/
  cfg : Config
  /-- STATUS (R32): ERR [3:0], LAST_OP [15:8], DONE [16]. -/
  status : BitVec 17
  /-- SRC_ADDR (R24). -/
  srcAddr : Word
  /-- SRC_LEN (R25). -/
  srcLen : Word
  /-- DST_ADDR (R26). -/
  dstAddr : Word
  /-- DST_LEN (R27). -/
  dstLen : Word
  /-- WIDTH (R28). -/
  width : Half
  /-- HEIGHT (R29). -/
  height : Half
  /-- OPA (R30). -/
  opa : Word
  /-- OPB (R31). -/
  opb : Word
  /-- RESULT (R34). -/
  result : Word
  /-- FMT (R35): FMTCODE [2:0], QUANT [7:4], BPP [15:8], KIND [17:16], SWZ [18]. -/
  fmt : BitVec 19
  /-- CANVAS_DIM (R37): CW [15:0], CH [31:16]. -/
  canvasDim : Word
  /-- LEVEL_BYTES (R38). -/
  levelBytes : Word
  /-- HDR_DSIZE (R39). -/
  hdrDsize : Word
  /-- HDR_UNK1 (R40). -/
  hdrUnk1 : Word
  /-- HDR_DIM (R41): width [15:0], height [31:16]. -/
  hdrDim : Word
  /-- HDR_INFO (R42): ENC [7:0], SUBCNT [15:8], COMPRESSED [16]. -/
  hdrInfo : BitVec 17
  /-- Memory (20_memory.md R50). -/
  mem : Memory
  /-- The host accesses still to be performed, the next one first (30_encoding.md R77). -/
  hostAccesses : List HostAccess
  /-- The values of the reads performed, the oldest first (30_encoding.md R77, 70_reset_and_hazards.md R238). -/
  reads : List Word
  deriving DecidableEq, Repr

/-- What a step or a command answers. -/
abbrev Result := Host.Outcome State Fault Refusal

/-- The machine right after reset: every register 0 (70_reset_and_hazards.md R230). The parameters are the spec's defaults
(log 3), no byte of memory is listed (log 2), no access waits and nothing has been read (log 1, log 5). -/
def State.reset : State where
  cfg := Config.specDefault
  status := 0
  srcAddr := 0
  srcLen := 0
  dstAddr := 0
  dstLen := 0
  width := 0
  height := 0
  opa := 0
  opb := 0
  result := 0
  fmt := 0
  canvasDim := 0
  levelBytes := 0
  hdrDsize := 0
  hdrUnk1 := 0
  hdrDim := 0
  hdrInfo := 0
  mem := []
  hostAccesses := []
  reads := []

end Sys2Proof.Machine
end

