-- ==== Sys2Proof/Machine/Flags.lean ====
section
/-! DEFINITION. STATUS, the block's only flags (10_state.md R32): the error codes, the word a completion writes, and its fields. -/
namespace Sys2Proof.Machine

/-- The code of an error kind (60_exceptions.md R201). -/
def CmdError.code : CmdError → BitVec 4
  | .invalidDimensions => 1
  | .unsupportedEncoding => 2
  | .truncatedData => 3
  | .illegalCommand => 4
  | .outputTooSmall => 5
  | .badRegion => 6

/-- STATUS as a completed command writes it: DONE = 1, LAST_OP, bits [7:4] = 0, ERR (10_state.md R32). -/
def statusWord (err : BitVec 4) (lastOp : Byte) : BitVec 17 := 1#1 ++ (lastOp ++ (0#4 ++ err))

/-- STATUS.ERR, bits [3:0] (10_state.md R32). -/
def State.err (s : State) : BitVec 4 := s.status.extractLsb' 0 4

/-- STATUS bits [7:4], which read 0 (10_state.md R32). -/
def State.statusReserved (s : State) : BitVec 4 := s.status.extractLsb' 4 4

/-- STATUS.LAST_OP, bits [15:8] (10_state.md R32). -/
def State.lastOp (s : State) : Byte := s.status.extractLsb' 8 8

/-- STATUS.DONE, bit [16] (10_state.md R32). -/
def State.done (s : State) : Bool := s.status.getLsbD 16

end Sys2Proof.Machine
end

