-- ==== Sys2Proof/Machine/Ops.lean ====
section
/-! DEFINITION. The shared operations: memory (20_memory.md sections 1 to 3), the region checks (section 4), the admit line (R56), the
named updates of the state, and completing a command with or without an error (60_exceptions.md R200). -/
namespace Sys2Proof.Machine

/-! ## Arithmetic and bytes (00_scope.md R9 to R11) -/

/-- `ceil_div(a, b)` (00_scope.md R10). -/
def ceilDiv (a b : Nat) : Nat := (a + b - 1) / b

/-- `v[lo + n - 1 : lo]`, an unsigned field (00_scope.md R9). -/
def bitField (v lo n : Nat) : Nat := v / 2 ^ lo % 2 ^ n

/-- `le(bytes)`: byte 0 is the least significant (00_scope.md R11, 20_memory.md R51, R52). -/
def le : List Byte → Nat
  | [] => 0
  | b :: bs => b.toNat + 256 * le bs

/-- `b[lo .. lo + n - 1]` of a byte sequence. -/
def slice (b : List Byte) (lo n : Nat) : List Byte := (b.drop lo).take n

/-! ## Memory (20_memory.md R50, R55) -/

/-- One byte of memory. -/
def Memory.read (m : Memory) (a : Nat) : Byte :=
  ((m.find? fun c => c.1 == a).map fun c => c.2).getD unlistedByte

/-- `MemRead(a, n)` (00_scope.md R11). -/
def Memory.readBytes (m : Memory) (a n : Nat) : List Byte := (List.range n).map fun k => m.read (a + k)

/-- The cells of the bytes `bs` laid down from address `a`, without those that read as an unlisted byte. -/
def Memory.cells (a : Nat) : List Byte → Memory
  | [] => []
  | b :: bs => if b = unlistedByte then Memory.cells (a + 1) bs else (a, b) :: Memory.cells (a + 1) bs

/-- `MemWrite(a, n, bs)` with n the length of `bs` (00_scope.md R11). -/
def Memory.writeBytes (m : Memory) (a : Nat) (bs : List Byte) : Memory :=
  (m.filter fun c => decide (c.1 < a)) ++ Memory.cells a bs ++ m.filter fun c => decide (a + bs.length ≤ c.1)

/-- The canonical form: addresses strictly rise and lie in the address space, and no cell reads as an unlisted byte. -/
abbrev Memory.wf (m : Memory) : Prop :=
  m.Pairwise (fun c d => c.1 < d.1) ∧ ∀ c ∈ m, c.2 ≠ unlistedByte ∧ c.1 < 2 ^ 32

/-! ## Region checks (20_memory.md R57 to R59) -/

/-- `check_src(n)` (20_memory.md R57). -/
def srcError (s : State) (n : Nat) : Option CmdError :=
  if s.srcLen.toNat < n then some .truncatedData
  else if s.srcAddr.toNat + n > 2 ^ 32 then some .badRegion
  else none

/-- `check_dst(n)` (20_memory.md R58). -/
def dstError (s : State) (n : Nat) : Option CmdError :=
  if s.dstLen.toNat < n then some .outputTooSmall
  else if s.dstAddr.toNat + n > 2 ^ 32 then some .badRegion
  else none

/-- `check_overlap(ns, nd)` (20_memory.md R59). -/
def overlapError (s : State) (ns nd : Nat) : Option CmdError :=
  if ns > 0 ∧ nd > 0 ∧ s.srcAddr.toNat < s.dstAddr.toNat + nd ∧ s.dstAddr.toNat < s.srcAddr.toNat + ns then
    some .badRegion
  else none

/-- The limit on a width and a height: `if w >= 0x8000 or h >= 0x8000: raise InvalidDimensions()` (40_header_format.md R104,
R111, 41_swizzle.md R133, R135, 42_block_decompress.md R170). -/
def dimError (w h : Nat) : Option CmdError :=
  if w ≥ 0x8000 ∨ h ≥ 0x8000 then some .invalidDimensions else none

/-- The first check that fails decides (20_memory.md R64, 60_exceptions.md R203). -/
def firstError : List (Option CmdError) → Option CmdError
  | [] => none
  | some e :: _ => some e
  | none :: rest => firstError rest

/-- `check_src(ns); check_dst(nd); check_overlap(ns, nd)`, the checks of every command with two regions, in their order
(60_exceptions.md R203 steps 3, 4, 8, 9, 10). -/
def regionError (s : State) (ns nd : Nat) : Option CmdError :=
  firstError [srcError s ns, dstError s nd, overlapError s ns nd]

/-! ## Admission (20_memory.md R56) -/

/-- `MemAdmit` on one byte address (00_scope.md R8). -/
def admitsByte (c : Config) (a : Nat) : Bool :=
  c.memAdmit.any fun r => decide (r.base ≤ a) && decide (a < r.base + r.size)

/-- Every byte of `[a, a + n)` is admitted. -/
def admitsRegion (c : Config) (a n : Nat) : Bool := (List.range n).all fun k => admitsByte c (a + k)

/-- `admit(src ns, dst nd)` (20_memory.md R56). -/
def admitted (s : State) (ns nd : Nat) : Bool :=
  admitsRegion s.cfg s.srcAddr.toNat ns && admitsRegion s.cfg s.dstAddr.toNat nd

/-! ## Named updates of the state -/

/-- Write STATUS. -/
def State.setStatus (s : State) (v : BitVec 17) : State := { s with status := v }

/-- Write RESULT. -/
def State.setResult (s : State) (v : Word) : State := { s with result := v }

/-- Write FMT. -/
def State.setFmt (s : State) (v : BitVec 19) : State := { s with fmt := v }

/-- Write CANVAS_DIM and LEVEL_BYTES. -/
def State.setCanvas (s : State) (dim bytes : Word) : State := { s with canvasDim := dim, levelBytes := bytes }

/-- Write HDR_DSIZE, HDR_UNK1, HDR_DIM and HDR_INFO. -/
def State.setHeader (s : State) (dsize unk dim : Word) (info : BitVec 17) : State :=
  { s with hdrDsize := dsize, hdrUnk1 := unk, hdrDim := dim, hdrInfo := info }

/-- Replace memory. -/
def State.setMem (s : State) (m : Memory) : State := { s with mem := m }

/-- Note the value of a read. -/
def State.pushRead (s : State) (v : Word) : State := { s with reads := s.reads ++ [v] }

/-- Leave the given accesses to be performed. -/
def State.setAccesses (s : State) (l : List HostAccess) : State := { s with hostAccesses := l }

/-! ## Completing a command -/

/-- Completion with ERR = 0 (10_state.md R32): STATUS for a command whose opcode is `op`. -/
def finish (op : Byte) (s : State) : State := s.setStatus (statusWord 0 op)

/-- `raise E()`: the error completion, the block's only exception (60_exceptions.md R200). STATUS records the code and the opcode and
nothing else changes: there is no vector, no saved state, no mode and no return (R204, R205). -/
def raiseError (op : Byte) (e : CmdError) (s : State) : State := s.setStatus (statusWord e.code op)

end Sys2Proof.Machine
end

