-- ==== Sys2Proof/Machine/Colour.lean ====
section
/-! DEFINITION. The pure decode functions: colours and blends (42_block_decompress.md R150 to R152), palettes (R153, R154), and the three block
formats (R155 to R158). -/
namespace Sys2Proof.Machine

/-- A pixel `(R, G, B, A)`, each 0 to 255 (00_scope.md R12). -/
structure Pixel where
  r : Byte
  g : Byte
  b : Byte
  a : Byte
  deriving DecidableEq, Repr

/-- Fully transparent black, the punch-through entry (42_block_decompress.md R153). -/
def Pixel.clear : Pixel := ⟨0, 0, 0, 0⟩

/-- `e5(v)`: a 5-bit channel as 8 bits (42_block_decompress.md R151). -/
def expand5 (m : Expand565) (v : Nat) : Nat :=
  match m with
  | .replicate => (v <<< 3) ||| (v >>> 2)
  | .round => (v * 255 + 15) / 31
  | .truncate => v * 255 / 31
  | .shift => v <<< 3

/-- `e6(v)`: a 6-bit channel as 8 bits (42_block_decompress.md R151). -/
def expand6 (m : Expand565) (v : Nat) : Nat :=
  match m with
  | .replicate => (v <<< 2) ||| (v >>> 4)
  | .round => (v * 255 + 31) / 63
  | .truncate => v * 255 / 63
  | .shift => v <<< 2

/-- `expand(c)`: an RGB565 word as a pixel with alpha 255 (42_block_decompress.md R150, R151). -/
def expand (m : Expand565) (c : Nat) : Pixel where
  r := BitVec.ofNat 8 (expand5 m (bitField c 11 5))
  g := BitVec.ofNat 8 (expand6 m (bitField c 5 6))
  b := BitVec.ofNat 8 (expand5 m (bitField c 0 5))
  a := 255

/-- `third(a, b)` (42_block_decompress.md R152). -/
def third (a b : Nat) : Nat := (2 * a + b + 1) / 3

/-- `twothirds(a, b)` (42_block_decompress.md R152). -/
def twothirds (a b : Nat) : Nat := (a + 2 * b + 1) / 3

/-- `half(a, b)` (42_block_decompress.md R152): a tie goes up, to the even neighbour, or down. -/
def half (t : BlendTie) (a b : Nat) : Nat :=
  match t with
  | .halfUp => (a + b + 1) / 2
  | .halfEven =>
    if (a + b) % 2 = 0 then (a + b) / 2
    else if (a + b) / 2 % 2 = 0 then (a + b) / 2
    else (a + b) / 2 + 1
  | .truncate => (a + b) / 2

/-- One blend applied to each of the four channels (42_block_decompress.md R152). -/
def blend (f : Nat → Nat → Nat) (p q : Pixel) : Pixel where
  r := BitVec.ofNat 8 (f p.r.toNat q.r.toNat)
  g := BitVec.ofNat 8 (f p.g.toNat q.g.toNat)
  b := BitVec.ofNat 8 (f p.b.toNat q.b.toNat)
  a := BitVec.ofNat 8 (f p.a.toNat q.a.toNat)

/-- `palette4(c0, c1)`: four colours whatever the order of c0 and c1 (42_block_decompress.md R154). -/
def palette4 (cfg : Config) (c0 c1 : Nat) : List Pixel :=
  let p0 := expand cfg.expand565 c0
  let p1 := expand cfg.expand565 c1
  [p0, p1, blend third p0 p1, blend twothirds p0 p1]

/-- `palette1(c0, c1)`: four colours when c0 > c1, else punch-through (42_block_decompress.md R153). -/
def palette1 (cfg : Config) (c0 c1 : Nat) : List Pixel :=
  let p0 := expand cfg.expand565 c0
  let p1 := expand cfg.expand565 c1
  if c0 > c1 then [p0, p1, blend third p0 p1, blend twothirds p0 p1]
  else [p0, p1, blend (half cfg.blendTie) p0 p1, Pixel.clear]

/-- `apal(a0, a1)`: the 8 alpha values of a DXT5 block (42_block_decompress.md R157). -/
def alphaPalette (a0 a1 : Nat) : List Nat :=
  if a0 > a1 then
    [a0, a1, (6 * a0 + 1 * a1 + 3) / 7, (5 * a0 + 2 * a1 + 3) / 7, (4 * a0 + 3 * a1 + 3) / 7,
      (3 * a0 + 4 * a1 + 3) / 7, (2 * a0 + 5 * a1 + 3) / 7, (1 * a0 + 6 * a1 + 3) / 7]
  else
    [a0, a1, (4 * a0 + 1 * a1 + 2) / 5, (3 * a0 + 2 * a1 + 2) / 5, (2 * a0 + 3 * a1 + 2) / 5,
      (1 * a0 + 4 * a1 + 2) / 5, 0, 255]

/-- The 2-bit colour index of pixel i: `idx[2i+1:2i]` (42_block_decompress.md R155). -/
def colourIndex (idx i : Nat) : Nat := bitField idx (2 * i) 2

/-- `dec1` (42_block_decompress.md R155). -/
def dec1 (cfg : Config) (b : List Byte) : List Pixel :=
  let palette := palette1 cfg (le (slice b 0 2)) (le (slice b 2 2))
  (List.range 16).map fun i => palette.getD (colourIndex (le (slice b 4 4)) i) Pixel.clear

/-- The colour of pixel i of a DXT3 or DXT5 block, from its bytes 8 to 15 (42_block_decompress.md R156, R157). -/
def opaqueColour (cfg : Config) (b : List Byte) (i : Nat) : Pixel :=
  (palette4 cfg (le (slice b 8 2)) (le (slice b 10 2))).getD (colourIndex (le (slice b 12 4)) i) Pixel.clear

/-- `dec3` (42_block_decompress.md R156): alpha is the explicit nibble shifted into the top 4 bits. -/
def dec3 (cfg : Config) (b : List Byte) : List Pixel :=
  (List.range 16).map fun i =>
    { opaqueColour cfg b i with a := BitVec.ofNat 8 (bitField (le (slice b 0 8)) (4 * i) 4 * 16) }

/-- `dec5` (42_block_decompress.md R157): alpha is the palette value that the 3-bit index selects. -/
def dec5 (cfg : Config) (b : List Byte) : List Pixel :=
  let alphas := alphaPalette (b.getD 0 0).toNat (b.getD 1 0).toNat
  (List.range 16).map fun i =>
    { opaqueColour cfg b i with a := BitVec.ofNat 8 (alphas.getD (bitField (le (slice b 2 6)) (3 * i) 3) 0) }

/-- The block size of a kind in bytes (42_block_decompress.md R159). -/
def blockBytes : BlockKind → Nat
  | .dxt1 => 8
  | .dxt3 => 16
  | .dxt5 => 16

/-- The decoder of a kind (42_block_decompress.md R159). -/
def decodeBlock (cfg : Config) : BlockKind → List Byte → List Pixel
  | .dxt1, b => dec1 cfg b
  | .dxt3, b => dec3 cfg b
  | .dxt5, b => dec5 cfg b

/-- `bytes(p)` (42_block_decompress.md R158, 20_memory.md R53). -/
def pixelBytes (o : OutOrder) (p : Pixel) : List Byte :=
  match o with
  | .rgba => [p.r, p.g, p.b, p.a]
  | .bgra => [p.b, p.g, p.r, p.a]

end Sys2Proof.Machine
end

