-- ==== Sys2Proof/Machine/Operands.lean ====
section
/-! DEFINITION. The operand forms of 30_encoding.md R72: the operand registers a command reads, the source region, and the register file as
the host reads and writes it (10_state.md R22, R23). -/
namespace Sys2Proof.Machine

/-- The encoding byte of RESOLVE_FMT: OPA[7:0] (10_state.md R30). -/
def State.opaEncoding (s : State) : Byte := s.opa.extractLsb' 0 8

/-- The compressed flag of RESOLVE_FMT: OPA[8] (10_state.md R30). -/
def State.opaCompressed (s : State) : Bool := s.opa.getLsbD 8

/-- The snapshot of the source region of `n` bytes (20_memory.md R63). -/
def State.source (s : State) (n : Nat) : List Byte := s.mem.readBytes s.srcAddr.toNat n

/-- The offset of a register (10_state.md R23). -/
def regOffset : Reg → BitVec 8
  | .cmd => 0x00
  | .status => 0x04
  | .srcAddr => 0x08
  | .srcLen => 0x0C
  | .dstAddr => 0x10
  | .dstLen => 0x14
  | .width => 0x18
  | .height => 0x1C
  | .opa => 0x20
  | .opb => 0x24
  | .result => 0x28
  | .fmt => 0x2C
  | .canvasDim => 0x30
  | .levelBytes => 0x34
  | .hdrDsize => 0x38
  | .hdrUnk1 => 0x3C
  | .hdrDim => 0x40
  | .hdrInfo => 0x44

/-- The register at an offset; `none` at a reserved offset (10_state.md R23). -/
def regAt (offset : BitVec 8) : Option Reg :=
  match offset with
  | 0x00#8 => some .cmd
  | 0x04#8 => some .status
  | 0x08#8 => some .srcAddr
  | 0x0C#8 => some .srcLen
  | 0x10#8 => some .dstAddr
  | 0x14#8 => some .dstLen
  | 0x18#8 => some .width
  | 0x1C#8 => some .height
  | 0x20#8 => some .opa
  | 0x24#8 => some .opb
  | 0x28#8 => some .result
  | 0x2C#8 => some .fmt
  | 0x30#8 => some .canvasDim
  | 0x34#8 => some .levelBytes
  | 0x38#8 => some .hdrDsize
  | 0x3C#8 => some .hdrUnk1
  | 0x40#8 => some .hdrDim
  | 0x44#8 => some .hdrInfo
  | _ => none

/-- What a host read of a register returns: its value, the bits it does not define reading 0; CMD reads 0 (10_state.md R22 b, c, e). -/
def readReg (s : State) : Reg → Word
  | .cmd => 0
  | .status => s.status.zeroExtend 32
  | .srcAddr => s.srcAddr
  | .srcLen => s.srcLen
  | .dstAddr => s.dstAddr
  | .dstLen => s.dstLen
  | .width => s.width.zeroExtend 32
  | .height => s.height.zeroExtend 32
  | .opa => s.opa
  | .opb => s.opb
  | .result => s.result
  | .fmt => s.fmt.zeroExtend 32
  | .canvasDim => s.canvasDim
  | .levelBytes => s.levelBytes
  | .hdrDsize => s.hdrDsize
  | .hdrUnk1 => s.hdrUnk1
  | .hdrDim => s.hdrDim
  | .hdrInfo => s.hdrInfo.zeroExtend 32

/-- What a host read at an offset returns: 0 at a reserved offset (10_state.md R22 d). -/
def readOffset (s : State) (offset : BitVec 8) : Word :=
  match regAt offset with
  | some r => readReg s r
  | none => 0

/-- A host write to a register other than CMD: a read-write register takes its defined bits, a write to any other is ignored
(10_state.md R22 b, e, f). A write to CMD is no write of a register but a command (`hostRegWrite`). -/
def writeReg (r : Reg) (v : Word) (s : State) : State :=
  match r with
  | .srcAddr => { s with srcAddr := v }
  | .srcLen => { s with srcLen := v }
  | .dstAddr => { s with dstAddr := v }
  | .dstLen => { s with dstLen := v }
  | .width => { s with width := v.extractLsb' 0 16 }
  | .height => { s with height := v.extractLsb' 0 16 }
  | .opa => { s with opa := v }
  | .opb => { s with opb := v }
  | .cmd => s
  | .status => s
  | .result => s
  | .fmt => s
  | .canvasDim => s
  | .levelBytes => s
  | .hdrDsize => s
  | .hdrUnk1 => s
  | .hdrDim => s
  | .hdrInfo => s

end Sys2Proof.Machine
end

