-- ==== Sys2Proof/Machine/Block.lean ====
section
/-! DEFINITION. The single-block commands: DXT1_BLOCK, DXT3_BLOCK, DXT5_BLOCK (42_block_decompress.md R160 to R163). -/
namespace Sys2Proof.Machine

/-- The 64 bytes a single-block command writes: pixel i at bytes 4i to 4i + 3 (42_block_decompress.md R163). -/
def blockOut (k : BlockKind) (s : State) : List Byte :=
  (decodeBlock s.cfg k (s.source (blockBytes k))).flatMap (pixelBytes s.cfg.outOrder)

/-- A single-block command of kind `k` (42_block_decompress.md R160 to R162). -/
def blockCommand (op : Byte) (k : BlockKind) (s : State) : Result :=
  match regionError s (blockBytes k) 64 with
  | some e => .next (raiseError op e s)
  | none =>
    if admitted s (blockBytes k) 64 then
      .next (finish op (s.setMem (s.mem.writeBytes s.dstAddr.toNat (blockOut k s))))
    else .fault .stuckUnadmitted

/-- DXT1_BLOCK (42_block_decompress.md R160). -/
def execDxt1Block (s : State) : Result := blockCommand Instr.dxt1Block.op .dxt1 s

/-- DXT3_BLOCK (42_block_decompress.md R161). -/
def execDxt3Block (s : State) : Result := blockCommand Instr.dxt3Block.op .dxt3 s

/-- DXT5_BLOCK (42_block_decompress.md R162). -/
def execDxt5Block (s : State) : Result := blockCommand Instr.dxt5Block.op .dxt5 s

end Sys2Proof.Machine
end

