-- ==== Sys2Proof/Machine/Format.lean ====
section
/-! DEFINITION. The format table (10_state.md R36), the FMT register value (R35), the format resolver (40_header_format.md R103) and the
canvas (R110, R111). -/
namespace Sys2Proof.Machine

/-- FMTCODE (10_state.md R36). -/
def formatCode : Format → BitVec 3
  | .gray => 1
  | .rgb => 2
  | .rgba => 3
  | .bgra => 4
  | .dxt1 => 5
  | .dxt3 => 6
  | .dxt5 => 7

/-- QUANT, the quantization unit in pixels (10_state.md R36). -/
def formatQuant : Format → Nat
  | .gray => 1
  | .rgb => 1
  | .rgba => 1
  | .bgra => 1
  | .dxt1 => 4
  | .dxt3 => 4
  | .dxt5 => 4

/-- BPP, bits per pixel (10_state.md R36). -/
def formatBpp : Format → Nat
  | .gray => 8
  | .rgb => 24
  | .rgba => 32
  | .bgra => 32
  | .dxt1 => 4
  | .dxt3 => 8
  | .dxt5 => 8

/-- KIND, the compression kind (10_state.md R36). -/
def formatKind : Format → BitVec 2
  | .gray => 0
  | .rgb => 0
  | .rgba => 0
  | .bgra => 0
  | .dxt1 => 1
  | .dxt3 => 2
  | .dxt5 => 3

/-- SWZ, set for the swizzled BGRA encoding (10_state.md R36). -/
def formatSwz : Format → BitVec 1
  | .bgra => 1
  | .gray => 0
  | .rgb => 0
  | .rgba => 0
  | .dxt1 => 0
  | .dxt3 => 0
  | .dxt5 => 0

/-- `FMTVALUE(f)`: the FMT register of a format, by the fields of 10_state.md R35. -/
def fmtValue (f : Format) : BitVec 19 :=
  formatSwz f ++ (formatKind f ++ (BitVec.ofNat 8 (formatBpp f) ++ (BitVec.ofNat 4 (formatQuant f) ++ (0#1 ++ formatCode f))))

/-- `resolve(enc, comp)` (40_header_format.md R103); `none` is `UnsupportedEncoding`. -/
def resolve (c : Config) (enc : Byte) (comp : Bool) : Option Format :=
  if comp = false ∧ enc = c.encGray then some .gray
  else if comp = false ∧ enc = c.encRgb then some .rgb
  else if comp = false ∧ enc = c.encRgba then some .rgba
  else if comp = false ∧ enc = c.encBgra then some .bgra
  else if comp = true ∧ enc = c.encRgb then some .dxt1
  else if comp = true ∧ enc = c.encRgba then some .dxt5
  else none

/-- One canvas dimension: `ceil_div(max(w, 1), q) * q` (40_header_format.md R110). -/
def canvasSize (w q : Nat) : Nat := ceilDiv (max w 1) q * q

/-- The byte size of one level: `(cw * ch * bpp) div 8` (40_header_format.md R111). -/
def levelSize (f : Format) (w h : Nat) : Nat :=
  canvasSize w (formatQuant f) * canvasSize h (formatQuant f) * formatBpp f / 8

end Sys2Proof.Machine
end

