-- ==== Sys2Proof/Machine/Header.lean ====
section
/-! DEFINITION. The header parser and the format resolver: PARSE_HDR (40_header_format.md R104) and RESOLVE_FMT (R105). -/
namespace Sys2Proof.Machine

/-- The fields of the texture header that the block holds (40_header_format.md R100). -/
structure Header where
  dsize : Word
  unk : Word
  width : Half
  height : Half
  enc : Byte
  sub : Byte
  deriving DecidableEq, Repr

/-- The header fields of 128 bytes, little-endian (40_header_format.md R100, 20_memory.md R51); bytes 14 to 127 are not held (R101). -/
def parseHeader (h : List Byte) : Header where
  dsize := BitVec.ofNat 32 (le (slice h 0 4))
  unk := BitVec.ofNat 32 (le (slice h 4 4))
  width := BitVec.ofNat 16 (le (slice h 8 2))
  height := BitVec.ofNat 16 (le (slice h 10 2))
  enc := h.getD 12 0
  sub := h.getD 13 0

/-- `comp = (dsize != 0)` (40_header_format.md R104). -/
def headerCompressed (h : Header) : Bool := h.dsize != 0

/-- HDR_INFO: `(comp << 16) | (sub << 8) | enc` (40_header_format.md R104). -/
def headerInfo (h : Header) : BitVec 17 := BitVec.ofBool (headerCompressed h) ++ (h.sub ++ h.enc)

/-- The commit of PARSE_HDR (40_header_format.md R104): the four HDR registers and FMT. -/
def commitHeader (h : Header) (f : Format) (s : State) : State :=
  (s.setHeader h.dsize h.unk (h.height ++ h.width) (headerInfo h)).setFmt (fmtValue f)

/-- PARSE_HDR once the header is read: the dimension check, the resolver, the commit (40_header_format.md R104). -/
def finishParse (op : Byte) (h : Header) (s : State) : State :=
  match dimError h.width.toNat h.height.toNat with
  | some e => raiseError op e s
  | none =>
    match resolve s.cfg h.enc (headerCompressed h) with
    | none => raiseError op .unsupportedEncoding s
    | some f => finish op (commitHeader h f s)

/-- PARSE_HDR (40_header_format.md R104). The bytes are admitted before the header's contents are checked (60_exceptions.md R203). -/
def execParseHdr (s : State) : Result :=
  match srcError s 128 with
  | some e => .next (raiseError Instr.parseHdr.op e s)
  | none =>
    if admitted s 128 0 then .next (finishParse Instr.parseHdr.op (parseHeader (s.source 128)) s)
    else .fault .stuckUnadmitted

/-- RESOLVE_FMT (40_header_format.md R105). -/
def execResolveFmt (s : State) : Result :=
  if admitted s 0 0 then
    match resolve s.cfg s.opaEncoding s.opaCompressed with
    | none => .next (raiseError Instr.resolveFmt.op .unsupportedEncoding s)
    | some f => .next (finish Instr.resolveFmt.op (s.setFmt (fmtValue f)))
  else .fault .stuckUnadmitted

end Sys2Proof.Machine
end

