-- ==== Sys2Proof/Machine/Quantizer.lean ====
section
/-! DEFINITION. The pixel-format quantizer: the seven CANVAS words (40_header_format.md R111). -/
namespace Sys2Proof.Machine

/-- CANVAS for the format its word names (40_header_format.md R111). -/
def canvasCommand (op : Byte) (f : Format) (s : State) : Result :=
  match dimError s.width.toNat s.height.toNat with
  | some e => .next (raiseError op e s)
  | none =>
    if admitted s 0 0 then
      .next (finish op (s.setCanvas
        (BitVec.ofNat 16 (canvasSize s.height.toNat (formatQuant f)) ++ BitVec.ofNat 16 (canvasSize s.width.toNat (formatQuant f)))
        (BitVec.ofNat 32 (levelSize f s.width.toNat s.height.toNat))))
    else .fault .stuckUnadmitted

/-- CANVAS.GRAY (40_header_format.md R111, FMT = 1). -/
def execCanvasGray (s : State) : Result := canvasCommand Instr.canvasGray.op .gray s

/-- CANVAS.RGB (40_header_format.md R111, FMT = 2). -/
def execCanvasRgb (s : State) : Result := canvasCommand Instr.canvasRgb.op .rgb s

/-- CANVAS.RGBA (40_header_format.md R111, FMT = 3). -/
def execCanvasRgba (s : State) : Result := canvasCommand Instr.canvasRgba.op .rgba s

/-- CANVAS.BGRA (40_header_format.md R111, FMT = 4). -/
def execCanvasBgra (s : State) : Result := canvasCommand Instr.canvasBgra.op .bgra s

/-- CANVAS.DXT1 (40_header_format.md R111, FMT = 5). -/
def execCanvasDxt1 (s : State) : Result := canvasCommand Instr.canvasDxt1.op .dxt1 s

/-- CANVAS.DXT3 (40_header_format.md R111, FMT = 6). -/
def execCanvasDxt3 (s : State) : Result := canvasCommand Instr.canvasDxt3.op .dxt3 s

/-- CANVAS.DXT5 (40_header_format.md R111, FMT = 7). -/
def execCanvasDxt5 (s : State) : Result := canvasCommand Instr.canvasDxt5.op .dxt5 s

end Sys2Proof.Machine
end

