-- ==== Sys2Proof/Machine/Surface.lean ====
section
/-! DEFINITION. The surface commands: DXT1_SURFACE, DXT3_SURFACE, DXT5_SURFACE (42_block_decompress.md R165, R166, R170 to R172). -/
namespace Sys2Proof.Machine

/-- Block columns or block rows of a dimension: `ceil_div(max(w, 1), 4)` (42_block_decompress.md R165). -/
def blockCount (w : Nat) : Nat := ceilDiv (max w 1) 4

/-- The source need `bw * bh * bb` (42_block_decompress.md R165). -/
def surfaceSrcNeed (k : BlockKind) (s : State) : Nat :=
  blockCount s.width.toNat * blockCount s.height.toNat * blockBytes k

/-- The destination need `W * H * 4` (42_block_decompress.md R166). -/
def surfaceDstNeed (s : State) : Nat := s.width.toNat * s.height.toNat * 4

/-- A decoded pixel with its place in the image, y counted top-down (42_block_decompress.md R166). -/
structure PlacedPixel where
  x : Nat
  y : Nat
  p : Pixel
  deriving DecidableEq, Repr

/-- The 16 placed pixels of block (bx, by): pixel 4r + k is image pixel (4bx + k, 4by + r) (42_block_decompress.md R166). -/
def placeBlock (bx by₀ : Nat) (px : List Pixel) : List PlacedPixel :=
  (List.range 4).flatMap fun r =>
    (List.range 4).map fun k => ⟨4 * bx + k, 4 * by₀ + r, px.getD (4 * r + k) Pixel.clear⟩

/-- Every placed pixel of a surface in the order of the command's loop: block rows top to bottom, blocks left to right, block (bx, by) at byte
offset `(by * bw + bx) * bb` of the source (42_block_decompress.md R165, R170). -/
def surfacePixels (cfg : Config) (k : BlockKind) (bw bh : Nat) (src : List Byte) : List PlacedPixel :=
  (List.range bh).flatMap fun by₀ =>
    (List.range bw).flatMap fun bx =>
      placeBlock bx by₀ (decodeBlock cfg k (slice src ((by₀ * bw + bx) * blockBytes k) (blockBytes k)))

/-- `put(x, y, p)` on memory: clip to the logical dimensions and flip about the logical height (42_block_decompress.md R166). -/
def putPixel (o : OutOrder) (dst w h : Nat) (m : Memory) (q : PlacedPixel) : Memory :=
  if q.x < w ∧ q.y < h then m.writeBytes (dst + ((h - 1 - q.y) * w + q.x) * 4) (pixelBytes o q.p) else m

/-- Memory after a surface command: every pixel of the snapshot put in turn (42_block_decompress.md R170). -/
def surfaceMem (k : BlockKind) (s : State) : Memory :=
  (surfacePixels s.cfg k (blockCount s.width.toNat) (blockCount s.height.toNat) (s.source (surfaceSrcNeed k s))).foldl
    (putPixel s.cfg.outOrder s.dstAddr.toNat s.width.toNat s.height.toNat) s.mem

/-- The checks of a surface command, in order (42_block_decompress.md R170). -/
def surfaceError (k : BlockKind) (s : State) : Option CmdError :=
  firstError [dimError s.width.toNat s.height.toNat, regionError s (surfaceSrcNeed k s) (surfaceDstNeed s)]

/-- A surface command of kind `k` (42_block_decompress.md R170 to R172). -/
def surfaceCommand (op : Byte) (k : BlockKind) (s : State) : Result :=
  match surfaceError k s with
  | some e => .next (raiseError op e s)
  | none =>
    if admitted s (surfaceSrcNeed k s) (surfaceDstNeed s) then .next (finish op (s.setMem (surfaceMem k s)))
    else .fault .stuckUnadmitted

/-- DXT1_SURFACE (42_block_decompress.md R170). -/
def execDxt1Surface (s : State) : Result := surfaceCommand Instr.dxt1Surface.op .dxt1 s

/-- DXT3_SURFACE (42_block_decompress.md R171). -/
def execDxt3Surface (s : State) : Result := surfaceCommand Instr.dxt3Surface.op .dxt3 s

/-- DXT5_SURFACE (42_block_decompress.md R172). -/
def execDxt5Surface (s : State) : Result := surfaceCommand Instr.dxt5Surface.op .dxt5 s

end Sys2Proof.Machine
end

