-- ==== Sys2Proof/Machine/Swizzle.lean ====
section
/-! DEFINITION. The log2 unit (41_swizzle.md R130, R131), the bit interleave (R132, R133) and the swizzle reverser (R134, R135, R137). -/
namespace Sys2Proof.Machine

/-- The fold of the log2 unit: every bit below the highest set bit becomes set (41_swizzle.md R130). -/
def log2Fold (v : Word) : Word :=
  let v := v ||| (v >>> 1)
  let v := v ||| (v >>> 2)
  let v := v ||| (v >>> 4)
  let v := v ||| (v >>> 8)
  v ||| (v >>> 16)

/-- `LOG2TAB` (41_swizzle.md R130), a constant (10_state.md R45). -/
def log2Table : List Nat :=
  [0, 9, 1, 10, 13, 21, 2, 29, 11, 14, 16, 18, 22, 25, 3, 30,
   8, 12, 20, 28, 15, 17, 24, 7, 19, 27, 23, 6, 26, 5, 4, 31]

/-- `log2(v)`: fold, multiply modulo 2^32, shift by 27, look up (41_swizzle.md R130). -/
def log2 (v : Word) : Nat := log2Table.getD ((log2Fold v * 0x07C4ACDD) >>> 27).toNat 0

/-- The loop of `interleave` (41_swizzle.md R132), `fuel` bounding its rounds: in each round the x bit is taken before the y bit. -/
def interleaveLoop : (fuel : Nat) → (x y wb hb pos off : Nat) → Nat
  | 0, _, _, _, _, _, off => off
  | fuel + 1, x, y, wb, hb, pos, off =>
    let off₁ := if wb > 0 then off ||| ((x % 2) <<< pos) else off
    let pos₁ := if wb > 0 then pos + 1 else pos
    let off₂ := if hb > 0 then off₁ ||| ((y % 2) <<< pos₁) else off₁
    let pos₂ := if hb > 0 then pos₁ + 1 else pos₁
    interleaveLoop fuel (if wb > 0 then x / 2 else x) (if hb > 0 then y / 2 else y) (wb - 1) (hb - 1) pos₂ off₂

/-- `interleave(x, y, wb, hb)` (41_swizzle.md R132): the loop ends when both budgets are spent, after `max wb hb` rounds. -/
def interleave (x y wb hb : Nat) : Nat := interleaveLoop (max wb hb) x y wb hb 0 0

/-- `pow2(w)` (41_swizzle.md R134). -/
def pow2 (w : Nat) : Bool := decide (w ≥ 1) && (w &&& (w - 1)) == 0

/-- A budget of the swizzle: `log2(max(w, 1))` (41_swizzle.md R133, R135). -/
def budget (w : Nat) : Nat := log2 (BitVec.ofNat 32 (max w 1))

/-- The row-major bytes that DESWIZZLE makes of the source bytes `src` of a `cw` × `ch` canvas: destination pixel (x, y) takes the 4 bytes at
source offset `interleave(x, y, wb, hb) * 4` (41_swizzle.md R135). -/
def deswizzleBytes (cw ch : Nat) (src : List Byte) : List Byte :=
  (List.range ch).flatMap fun y =>
    (List.range cw).flatMap fun x =>
      (List.range 4).map fun k => src.getD (interleave x y (budget cw) (budget ch) * 4 + k) 0

/-- LOG2 (41_swizzle.md R131). -/
def execLog2 (s : State) : Result :=
  if admitted s 0 0 then .next (finish Instr.log2.op (s.setResult (BitVec.ofNat 32 (log2 s.opa))))
  else .fault .stuckUnadmitted

/-- SWZ_OFFSET (41_swizzle.md R133). -/
def execSwzOffset (s : State) : Result :=
  match dimError s.width.toNat s.height.toNat with
  | some e => .next (raiseError Instr.swzOffset.op e s)
  | none =>
    if admitted s 0 0 then
      .next (finish Instr.swzOffset.op (s.setResult (BitVec.ofNat 32
        (interleave s.opa.toNat s.opb.toNat (budget s.width.toNat) (budget s.height.toNat)))))
    else .fault .stuckUnadmitted

/-- The canvas bytes of DESWIZZLE: `cw * ch * 4` with cw = max(W, 1), ch = max(H, 1) (41_swizzle.md R135). -/
def deswizzleNeed (s : State) : Nat := max s.width.toNat 1 * max s.height.toNat 1 * 4

/-- The case of 41_swizzle.md R137 under `SWZ_NONPOW2_H = refuse`. -/
def deswizzleRefused (s : State) : Bool :=
  pow2 s.width.toNat && !pow2 (max s.height.toNat 1) && s.cfg.swzNonpow2H == .refuse

/-- The destination bytes of DESWIZZLE: reordered when the logical width is a power of two, unchanged otherwise (41_swizzle.md R135). -/
def deswizzleOut (s : State) : List Byte :=
  if pow2 s.width.toNat then
    deswizzleBytes (max s.width.toNat 1) (max s.height.toNat 1) (s.source (deswizzleNeed s))
  else s.source (deswizzleNeed s)

/-- The checks of DESWIZZLE, in order (41_swizzle.md R135). -/
def deswizzleError (s : State) : Option CmdError :=
  firstError [dimError s.width.toNat s.height.toNat, regionError s (deswizzleNeed s) (deswizzleNeed s)]

/-- DESWIZZLE (41_swizzle.md R135, R137). -/
def execDeswizzle (s : State) : Result :=
  match deswizzleError s with
  | some e => .next (raiseError Instr.deswizzle.op e s)
  | none =>
    if deswizzleRefused s then .refused .nonpow2Height
    else if admitted s (deswizzleNeed s) (deswizzleNeed s) then
      .next (finish Instr.deswizzle.op (s.setMem (s.mem.writeBytes s.dstAddr.toNat (deswizzleOut s))))
    else .fault .stuckUnadmitted

end Sys2Proof.Machine
end

