-- ==== Sys2Proof/Machine/Dispatch.lean ====
section
/-! DEFINITION. One arm per instruction, each a direct call of its meaning. -/
namespace Sys2Proof.Machine

def exec (i : Instr) (s : State) : Host.Outcome State Fault Refusal :=
  match i with
  | .parseHdr => Sys2Proof.Machine.execParseHdr s
  | .resolveFmt => Sys2Proof.Machine.execResolveFmt s
  | .canvasGray => Sys2Proof.Machine.execCanvasGray s
  | .canvasRgb => Sys2Proof.Machine.execCanvasRgb s
  | .canvasRgba => Sys2Proof.Machine.execCanvasRgba s
  | .canvasBgra => Sys2Proof.Machine.execCanvasBgra s
  | .canvasDxt1 => Sys2Proof.Machine.execCanvasDxt1 s
  | .canvasDxt3 => Sys2Proof.Machine.execCanvasDxt3 s
  | .canvasDxt5 => Sys2Proof.Machine.execCanvasDxt5 s
  | .log2 => Sys2Proof.Machine.execLog2 s
  | .swzOffset => Sys2Proof.Machine.execSwzOffset s
  | .deswizzle => Sys2Proof.Machine.execDeswizzle s
  | .dxt1Block => Sys2Proof.Machine.execDxt1Block s
  | .dxt3Block => Sys2Proof.Machine.execDxt3Block s
  | .dxt5Block => Sys2Proof.Machine.execDxt5Block s
  | .dxt1Surface => Sys2Proof.Machine.execDxt1Surface s
  | .dxt3Surface => Sys2Proof.Machine.execDxt3Surface s
  | .dxt5Surface => Sys2Proof.Machine.execDxt5Surface s

end Sys2Proof.Machine
end

