-- ==== Sys2Proof/Machine/HostPort.lean ====
section
/-! DEFINITION. What one access of the host does (10_state.md R22, 30_encoding.md R77, R78): a register read, a register write, a write to CMD, which
performs a command; and a store of the host to memory and the platform's reset between commands. -/
namespace Sys2Proof.Machine

/-- A host write to CMD performs one command (10_state.md R22 g); an illegal word completes with `IllegalCommand` and LAST_OP = CMD[7:0], reading
no operand and no memory (30_encoding.md R74, R78). -/
def runCommand (w : Word) (s : State) : Result :=
  match decode w with
  | .ok i => exec i s
  | .error _ => .next (raiseError (cmdOp w) .illegalCommand s)

/-- "The host accesses it only with 32-bit accesses at offsets that are multiples of 4" (10_state.md R22 a). -/
def accessAllowed (offset : BitVec 8) (bits : Nat) : Bool := bits == 32 && offset.toNat % 4 == 0

/-- A host write of `v` at a register offset (10_state.md R22 b, d to g). -/
def hostRegWrite (offset : BitVec 8) (v : Word) (s : State) : Result :=
  match regAt offset with
  | some .cmd => runCommand v s
  | some r => .next (writeReg r v s)
  | none => .next s

/-- Reset (70_reset_and_hazards.md R230, R231): every register becomes 0; memory, the parameters, the accesses still to come and the values read
stay. -/
def applyReset (s : State) : State :=
  { State.reset with cfg := s.cfg, mem := s.mem, hostAccesses := s.hostAccesses, reads := s.reads }

/-- One access of the host or the platform. -/
def performAccess (a : HostAccess) (s : State) : Result :=
  match a with
  | .regWrite offset bits v => if accessAllowed offset bits then hostRegWrite offset v s else .refused .registerAccess
  | .regRead offset bits =>
    if accessAllowed offset bits then .next (s.pushRead (readOffset s offset)) else .refused .registerAccess
  | .memWrite addr b =>
    if admitsByte s.cfg addr.toNat then .next (s.setMem (s.mem.writeBytes addr.toNat [b])) else .fault .hostStoreUnadmitted
  | .reset => .next (applyReset s)

end Sys2Proof.Machine
end

