-- ==== Sys2Proof/Machine/Step.lean ====
section
/-! DEFINITION. One step of the machine: the next access of the host (00_scope.md R6). -/
namespace Sys2Proof.Machine

/-- One step performs the next access of the host; with none left the block waits and nothing changes (70_reset_and_hazards.md R232, log 8). -/
def step (s : State) : Host.Outcome State Fault Refusal :=
  match s.hostAccesses with
  | [] => .next s
  | a :: rest => performAccess a (s.setAccesses rest)

/-- The block fetches nothing (10_state.md R21): its next instruction is the word of the host's next write to CMD, so that write becomes the
next access; the accesses that were waiting follow it (log 1). -/
def State.withFetchWord (s : State) (nbits w : Nat) : State :=
  s.setAccesses (.regWrite (regOffset .cmd) 32 (BitVec.ofNat 32 (w % 2 ^ nbits)) :: s.hostAccesses)

end Sys2Proof.Machine
end

