-- ==== Sys2Proof/Safety.lean ====
section
/-! DEFINITION. What counts as a safe state, in the terms the statements use: each register holds a value the spec says it can hold, and memory is
in its canonical form. -/
namespace Sys2Proof.Machine

/-- STATUS holds 0 (before any command) or what a completion writes: DONE = 1, bits [7:4] = 0, an error code 0 to 6
(10_state.md R32, 60_exceptions.md R201). -/
def State.statusLegal (s : State) : Prop :=
  s.statusReserved = 0 ∧ s.err.toNat ≤ 6 ∧ (s.done = false → s.status = 0)

/-- FMT holds 0 (no format resolved) or the value of a row of the format table other than DXT3, which no pair resolves to
(10_state.md R35, R36, 40_header_format.md R103). -/
def State.fmtLegal (s : State) : Prop := s.fmt = 0 ∨ ∃ f : Format, f ≠ .dxt3 ∧ s.fmt = fmtValue f

/-- The canvas halves are at most 0x8000 and the level size is within its bound (10_state.md R37, 40_header_format.md R112). -/
def State.canvasLegal (s : State) : Prop :=
  (s.canvasDim.extractLsb' 0 16).toNat ≤ 0x8000 ∧ (s.canvasDim.extractLsb' 16 16).toNat ≤ 0x8000 ∧
    s.levelBytes.toNat ≤ 0xFFFC0004

/-- The header dimensions are below 0x8000 and COMPRESSED tells whether the declared size is non-zero (10_state.md R41, R42). -/
def State.headerLegal (s : State) : Prop :=
  (s.hdrDim.extractLsb' 0 16).toNat < 0x8000 ∧ (s.hdrDim.extractLsb' 16 16).toNat < 0x8000 ∧
    (s.hdrInfo.getLsbD 16 = true ↔ s.hdrDsize ≠ 0)

/-- RESULT is a logarithm (at most 31) or a pixel offset (below 2^28) (10_state.md R34, 41_swizzle.md R133). -/
def State.resultLegal (s : State) : Prop := s.result.toNat < 2 ^ 28

/-- The invariant of the machine: what the spec says of the registers, and the canonical form of memory, which is the model's own (log 2). -/
def State.Inv (s : State) : Prop :=
  s.mem.wf ∧ s.statusLegal ∧ s.fmtLegal ∧ s.canvasLegal ∧ s.headerLegal ∧ s.resultLegal

/-- Every byte of the address space is admitted (00_scope.md R8, the default of `MemAdmit`). -/
def State.allAdmitted (s : State) : Prop := ∀ a, a < 2 ^ 32 → admitsByte s.cfg a = true

/-- The source need of a command in bytes (30_encoding.md R72, 42_block_decompress.md R165). -/
def srcNeed (i : Instr) (s : State) : Nat :=
  match i with
  | .parseHdr => 128
  | .resolveFmt => 0
  | .canvasGray => 0
  | .canvasRgb => 0
  | .canvasRgba => 0
  | .canvasBgra => 0
  | .canvasDxt1 => 0
  | .canvasDxt3 => 0
  | .canvasDxt5 => 0
  | .log2 => 0
  | .swzOffset => 0
  | .deswizzle => max s.width.toNat 1 * max s.height.toNat 1 * 4
  | .dxt1Block => 8
  | .dxt3Block => 16
  | .dxt5Block => 16
  | .dxt1Surface => ((max s.width.toNat 1 + 3) / 4) * ((max s.height.toNat 1 + 3) / 4) * 8
  | .dxt3Surface => ((max s.width.toNat 1 + 3) / 4) * ((max s.height.toNat 1 + 3) / 4) * 16
  | .dxt5Surface => ((max s.width.toNat 1 + 3) / 4) * ((max s.height.toNat 1 + 3) / 4) * 16

/-- The destination need of a command in bytes (30_encoding.md R72). -/
def dstNeed (i : Instr) (s : State) : Nat :=
  match i with
  | .parseHdr => 0
  | .resolveFmt => 0
  | .canvasGray => 0
  | .canvasRgb => 0
  | .canvasRgba => 0
  | .canvasBgra => 0
  | .canvasDxt1 => 0
  | .canvasDxt3 => 0
  | .canvasDxt5 => 0
  | .log2 => 0
  | .swzOffset => 0
  | .deswizzle => max s.width.toNat 1 * max s.height.toNat 1 * 4
  | .dxt1Block => 64
  | .dxt3Block => 64
  | .dxt5Block => 64
  | .dxt1Surface => s.width.toNat * s.height.toNat * 4
  | .dxt3Surface => s.width.toNat * s.height.toNat * 4
  | .dxt5Surface => s.width.toNat * s.height.toNat * 4

/-- The commands that read WIDTH and HEIGHT (30_encoding.md R72). -/
def readsDims (i : Instr) : Bool :=
  match i with
  | .parseHdr => false
  | .resolveFmt => false
  | .canvasGray => true
  | .canvasRgb => true
  | .canvasRgba => true
  | .canvasBgra => true
  | .canvasDxt1 => true
  | .canvasDxt3 => true
  | .canvasDxt5 => true
  | .log2 => false
  | .swzOffset => true
  | .deswizzle => true
  | .dxt1Block => false
  | .dxt3Block => false
  | .dxt5Block => false
  | .dxt1Surface => true
  | .dxt3Surface => true
  | .dxt5Surface => true

/-- Every byte of a command's regions is admitted (20_memory.md R56). -/
abbrev State.regionsAdmitted (s : State) (ns nd : Nat) : Prop :=
  (∀ k, k < ns → admitsByte s.cfg (s.srcAddr.toNat + k) = true) ∧
    ∀ k, k < nd → admitsByte s.cfg (s.dstAddr.toNat + k) = true

/-- A source region of `ns` bytes and a destination region of `nd` bytes pass every region check and are admitted
(20_memory.md R56 to R59). -/
abbrev State.regionsReady (s : State) (ns nd : Nat) : Prop :=
  ns ≤ s.srcLen.toNat ∧ s.srcAddr.toNat + ns ≤ 2 ^ 32 ∧ nd ≤ s.dstLen.toNat ∧ s.dstAddr.toNat + nd ≤ 2 ^ 32 ∧
    (ns = 0 ∨ nd = 0 ∨ s.srcAddr.toNat + ns ≤ s.dstAddr.toNat ∨ s.dstAddr.toNat + nd ≤ s.srcAddr.toNat) ∧
    s.regionsAdmitted ns nd

/-- Of a list of cases (condition, what then holds) the first whose condition holds decides; when none does, `otherwise` holds. -/
def firstCase (otherwise : Prop) : List (Prop × Prop) → Prop
  | [] => otherwise
  | (condition, conclusion) :: rest => (condition → conclusion) ∧ (¬condition → firstCase otherwise rest)

/-- WIDTH and HEIGHT are below the limit of 0x8000 (10_state.md R28, R29). -/
abbrev State.dimsLegal (s : State) : Prop := s.width.toNat < 0x8000 ∧ s.height.toNat < 0x8000

end Sys2Proof.Machine
end

