-- ==== Sys2Proof/Certificates/Slice0/Obligations.lean ====
section
/-! DEFINITION. The statements about the model, one `def Obligations.<Name> : Prop` each. -/

open Sys2Proof Sys2Proof.Machine

/-! ## Encoding -/

/-- 30_encoding.md R75: every command word is one of the 18 legal words, which selects the command listed beside it and no other, or it is
illegal; and decoding what the encoder writes gives the instruction back. -/
def Obligations.DecodeSelectsExactlyTheLegalWords : Prop :=
  (∀ i : Instr, decode (encode i) = .ok i ∧ i.wf = true) ∧
  (∀ w : Word,
    (∃ i, decode w = .ok i ∧ w = encode i ∧ ∀ j, w = encode j → j = i) ∨
      ((∃ r, decode w = .error r) ∧ ∀ j, w ≠ encode j)) ∧
  ∀ (w : Word) (i : Instr), decode w = .ok i ↔
    (w, i) ∈ ([(0x00000001, .parseHdr), (0x00000002, .resolveFmt), (0x00000103, .canvasGray), (0x00000203, .canvasRgb),
      (0x00000303, .canvasRgba), (0x00000403, .canvasBgra), (0x00000503, .canvasDxt1), (0x00000603, .canvasDxt3),
      (0x00000703, .canvasDxt5), (0x00000004, .log2), (0x00000005, .swzOffset), (0x00000006, .deswizzle),
      (0x00000010, .dxt1Block), (0x00000011, .dxt3Block), (0x00000012, .dxt5Block), (0x00000018, .dxt1Surface),
      (0x00000019, .dxt3Surface), (0x0000001A, .dxt5Surface)] : List (Word × Instr))

/-- 30_encoding.md R74, R78: the four cases that make a command word illegal, and what a write of an illegal word to CMD does: it
completes with `IllegalCommand` (code 4) and writes STATUS only. -/
def Obligations.IllegalWordsCompleteWithIllegalCommand : Prop :=
  ∀ w : Word,
    ((∃ r, decode w = .error r) ↔
      (w.extractLsb' 0 8 ∉ ([0x01, 0x02, 0x03, 0x04, 0x05, 0x06, 0x10, 0x11, 0x12, 0x18, 0x19, 0x1A] : List (BitVec 8)) ∨
        w.extractLsb' 11 21 ≠ 0 ∨
        (w.extractLsb' 0 8 ≠ 0x03 ∧ w.extractLsb' 8 3 ≠ 0) ∨
        (w.extractLsb' 0 8 = 0x03 ∧ w.extractLsb' 8 3 = 0))) ∧
    ∀ (s : State) (rest : List HostAccess), (∃ r, decode w = .error r) → s.hostAccesses = .regWrite 0x00 32 w :: rest →
      step s = .next { s with hostAccesses := rest, status := statusWord 4 (w.extractLsb' 0 8) }

/-- A step runs the decoded instruction: when the next access of the host writes a legal word to CMD, the step is `exec` of its
instruction at the state in which that access is gone. -/
def Obligations.StepRunsTheDecodedInstruction : Prop :=
  ∀ (s : State) (rest : List HostAccess) (w : Word) (i : Instr),
    s.hostAccesses = .regWrite 0x00 32 w :: rest → decode w = .ok i →
      step s = exec i { s with hostAccesses := rest }

/-- Some command words of 30_encoding.md R73, written out in bits: RSV, FMT, OP. -/
def Obligations.SampleWordsDecode : Prop :=
  decode 0b000000000000000000000_000_00000001#32 = .ok .parseHdr ∧
  decode 0b000000000000000000000_111_00000011#32 = .ok .canvasDxt5 ∧
  decode 0b000000000000000000000_000_00000110#32 = .ok .deswizzle ∧
  decode 0b000000000000000000000_000_00010001#32 = .ok .dxt3Block ∧
  decode 0b000000000000000000000_000_00011010#32 = .ok .dxt5Surface ∧
  decode 0b000000000000000000001_000_00010000#32 = .error .reservedBits

/-! ## The host's register accesses -/

/-- 10_state.md R22, its points (a) to (g), over the register map of R23. -/
def Obligations.RegisterAccessRules : Prop :=
  ∀ (s : State) (rest : List HostAccess) (off : BitVec 8) (v : Word),
    -- (a) any other width or alignment is refused
    (∀ bits : Nat, bits ≠ 32 ∨ off.toNat % 4 ≠ 0 →
      (s.hostAccesses = .regWrite off bits v :: rest → step s = .refused .registerAccess) ∧
      (s.hostAccesses = .regRead off bits :: rest → step s = .refused .registerAccess)) ∧
    -- (b), (c), (e) what a read returns
    (∀ p ∈ ([(0x00, 0), (0x04, s.status.zeroExtend 32), (0x08, s.srcAddr), (0x0C, s.srcLen), (0x10, s.dstAddr),
        (0x14, s.dstLen), (0x18, s.width.zeroExtend 32), (0x1C, s.height.zeroExtend 32), (0x20, s.opa), (0x24, s.opb),
        (0x28, s.result), (0x2C, s.fmt.zeroExtend 32), (0x30, s.canvasDim), (0x34, s.levelBytes), (0x38, s.hdrDsize),
        (0x3C, s.hdrUnk1), (0x40, s.hdrDim), (0x44, s.hdrInfo.zeroExtend 32)] : List (BitVec 8 × Word)),
      s.hostAccesses = .regRead p.1 32 :: rest → step s = .next { s with hostAccesses := rest, reads := s.reads ++ [p.2] }) ∧
    -- (d) reserved offsets
    (off.toNat % 4 = 0 → 0x48 ≤ off.toNat →
      (s.hostAccesses = .regRead off 32 :: rest → step s = .next { s with hostAccesses := rest, reads := s.reads ++ [0] }) ∧
      (s.hostAccesses = .regWrite off 32 v :: rest → step s = .next { s with hostAccesses := rest })) ∧
    -- (b) a write to a read-only register is ignored
    (off ∈ ([0x04, 0x28, 0x2C, 0x30, 0x34, 0x38, 0x3C, 0x40, 0x44] : List (BitVec 8)) →
      s.hostAccesses = .regWrite off 32 v :: rest → step s = .next { s with hostAccesses := rest }) ∧
    -- (e), (f) a write to a read-write register sets its defined bits
    (∀ p ∈ ([(0x08, { s with hostAccesses := rest, srcAddr := v }), (0x0C, { s with hostAccesses := rest, srcLen := v }),
        (0x10, { s with hostAccesses := rest, dstAddr := v }), (0x14, { s with hostAccesses := rest, dstLen := v }),
        (0x18, { s with hostAccesses := rest, width := v.extractLsb' 0 16 }),
        (0x1C, { s with hostAccesses := rest, height := v.extractLsb' 0 16 }),
        (0x20, { s with hostAccesses := rest, opa := v }), (0x24, { s with hostAccesses := rest, opb := v })] :
          List (BitVec 8 × State)),
      s.hostAccesses = .regWrite p.1 32 v :: rest → step s = .next p.2) ∧
    -- (g) a write to CMD performs one command
    (s.hostAccesses = .regWrite 0x00 32 v :: rest → step s = runCommand v { s with hostAccesses := rest })

/-- 70_reset_and_hazards.md R230, at the start and as the platform's step: every register is 0. The step keeps memory (R231). That
`State.reset` lists no memory and that the step keeps the parameters, the accesses still to come and the values read are the model's
choices (log 2, log 6), not stated here as the spec's. -/
def Obligations.ResetClearsEveryRegister : Prop :=
  ∀ t : State,
    (t = State.reset ∨ ∃ (s : State) (rest : List HostAccess), s.hostAccesses = .reset :: rest ∧ step s = .next t) →
      t.status = 0 ∧ t.srcAddr = 0 ∧ t.srcLen = 0 ∧ t.dstAddr = 0 ∧ t.dstLen = 0 ∧ t.width = 0 ∧ t.height = 0 ∧ t.opa = 0 ∧
      t.opb = 0 ∧ t.result = 0 ∧ t.fmt = 0 ∧ t.canvasDim = 0 ∧ t.levelBytes = 0 ∧ t.hdrDsize = 0 ∧ t.hdrUnk1 = 0 ∧
      t.hdrDim = 0 ∧ t.hdrInfo = 0 ∧ t.done = false ∧ t.err = 0 ∧ t.fmt.extractLsb' 0 3 = 0

/-- The model's choices around a platform reset (log 6) beside 70_reset_and_hazards.md R231: the step answers a next state, memory is
unchanged, and so are the parameters, the accesses still to come and the values read. -/
def Obligations.PlatformResetKeepsMemory : Prop :=
  ∀ (s : State) (rest : List HostAccess), s.hostAccesses = .reset :: rest →
    ∃ t, step s = .next t ∧ t.mem = s.mem ∧ t.cfg = s.cfg ∧ t.hostAccesses = rest ∧ t.reads = s.reads

/-- The model's choice (log 8): with no access of the host left, the block waits and nothing changes. -/
def Obligations.IdleBlockWaits : Prop :=
  ∀ s : State, s.hostAccesses = [] → step s = .next s

/-- The model's choice (log 4): the host stores one byte to memory between commands; an unadmitted byte stops the machine. -/
def Obligations.HostStoreWritesOneByte : Prop :=
  ∀ (s : State) (rest : List HostAccess) (a : Word) (b : Byte), s.hostAccesses = .memWrite a b :: rest →
    (admitsByte s.cfg a.toNat = true →
      ∃ m, step s = .next { s with hostAccesses := rest, mem := m } ∧ m.read a.toNat = b ∧
        ∀ x, x ≠ a.toNat → m.read x = s.mem.read x) ∧
    (admitsByte s.cfg a.toNat = false → step s = .fault .hostStoreUnadmitted)

/-! ## Region checks -/

/-- 20_memory.md R57. -/
def Obligations.SourceCheckRule : Prop :=
  ∀ (s : State) (n : Nat),
    (s.srcLen.toNat < n → srcError s n = some .truncatedData) ∧
    (n ≤ s.srcLen.toNat → s.srcAddr.toNat + n > 2 ^ 32 → srcError s n = some .badRegion) ∧
    (n ≤ s.srcLen.toNat → s.srcAddr.toNat + n ≤ 2 ^ 32 → srcError s n = none) ∧
    srcError s 0 = none

/-- 20_memory.md R58. -/
def Obligations.DestinationCheckRule : Prop :=
  ∀ (s : State) (n : Nat),
    (s.dstLen.toNat < n → dstError s n = some .outputTooSmall) ∧
    (n ≤ s.dstLen.toNat → s.dstAddr.toNat + n > 2 ^ 32 → dstError s n = some .badRegion) ∧
    (n ≤ s.dstLen.toNat → s.dstAddr.toNat + n ≤ 2 ^ 32 → dstError s n = none) ∧
    dstError s 0 = none

/-- 20_memory.md R59: the overlap check fails exactly by the rule's inequalities, which hold exactly when some byte address lies in both
regions; where it runs, after the other two checks, neither sum exceeds 2^32. -/
def Obligations.OverlapCheckFindsSharedBytes : Prop :=
  ∀ (s : State) (ns nd : Nat),
    (overlapError s ns nd = some .badRegion ↔
      ns > 0 ∧ nd > 0 ∧ s.srcAddr.toNat < s.dstAddr.toNat + nd ∧ s.dstAddr.toNat < s.srcAddr.toNat + ns) ∧
    (overlapError s ns nd = some .badRegion ∨ overlapError s ns nd = none) ∧
    (overlapError s ns nd = some .badRegion ↔
      ∃ a, (s.srcAddr.toNat ≤ a ∧ a < s.srcAddr.toNat + ns) ∧ s.dstAddr.toNat ≤ a ∧ a < s.dstAddr.toNat + nd) ∧
    (srcError s ns = none → dstError s nd = none → s.srcAddr.toNat + ns ≤ 2 ^ 32 ∧ s.dstAddr.toNat + nd ≤ 2 ^ 32)

/-! ## Errors, STATUS and the frames of all commands -/

/-- 60_exceptions.md R203, all its steps for every command word: which error is reported, and when the command is stuck or refused. -/
def Obligations.ReportedOutcomeFollowsPriority : Prop :=
  ∀ (w : Word) (s : State),
    let reports (code : BitVec 4) : Prop := runCommand w s = .next { s with status := statusWord code (w.extractLsb' 0 8) }
    let hdr := parseHeader (s.source 128)
    -- step 1
    (∀ r, decode w = .error r → reports 4) ∧
    ∀ i, decode w = .ok i →
      firstCase (∃ t, runCommand w s = .next t ∧ t.status = statusWord 0 (w.extractLsb' 0 8)) [
        -- steps 2 to 4
        (readsDims i = true ∧ (s.width.toNat ≥ 0x8000 ∨ s.height.toNat ≥ 0x8000), reports 1),
        (s.srcLen.toNat < srcNeed i s, reports 3),
        (s.srcAddr.toNat + srcNeed i s > 2 ^ 32, reports 6),
        -- steps 5 to 7
        (i = .parseHdr ∧ ¬s.regionsAdmitted 128 0, runCommand w s = .fault .stuckUnadmitted),
        (i = .parseHdr ∧ (hdr.width.toNat ≥ 0x8000 ∨ hdr.height.toNat ≥ 0x8000), reports 1),
        ((i = .parseHdr ∧ resolve s.cfg hdr.enc (headerCompressed hdr) = none) ∨
          (i = .resolveFmt ∧ resolve s.cfg s.opaEncoding s.opaCompressed = none), reports 2),
        -- steps 8 to 10
        (s.dstLen.toNat < dstNeed i s, reports 5),
        (s.dstAddr.toNat + dstNeed i s > 2 ^ 32, reports 6),
        (srcNeed i s > 0 ∧ dstNeed i s > 0 ∧ s.srcAddr.toNat < s.dstAddr.toNat + dstNeed i s ∧
          s.dstAddr.toNat < s.srcAddr.toNat + srcNeed i s, reports 6),
        -- steps 11 and 12
        (i = .deswizzle ∧ s.cfg.swzNonpow2H = .refuse ∧ pow2 s.width.toNat = true ∧ pow2 (max s.height.toNat 1) = false,
          runCommand w s = .refused .nonpow2Height),
        (¬s.regionsAdmitted (srcNeed i s) (dstNeed i s), runCommand w s = .fault .stuckUnadmitted)]

/-- 60_exceptions.md R200, with the codes of R201: an error completion writes ERR = code(E), LAST_OP and DONE into STATUS and nothing else. -/
def Obligations.ErrorCompletionWritesOnlyStatus : Prop :=
  (∀ (w : Word) (s t : State), runCommand w s = .next t → t.err ≠ 0 →
    ∃ e : CmdError, t = { s with status := t.status } ∧ t.err = e.code ∧ t.lastOp = w.extractLsb' 0 8 ∧ t.done = true ∧
      t.statusReserved = 0) ∧
  [CmdError.invalidDimensions, .unsupportedEncoding, .truncatedData, .illegalCommand, .outputTooSmall, .badRegion].map CmdError.code =
    ([1, 2, 3, 4, 5, 6] : List (BitVec 4))

/-- Every completed command writes all of STATUS (ERR at most 6, bits [7:4] 0, LAST_OP, DONE), nothing but a command or a reset changes it,
and only a reset clears DONE (10_state.md section 4). -/
def Obligations.OnlyCommandsAndResetWriteStatus : Prop :=
  (∀ (w : Word) (s t : State), runCommand w s = .next t →
    t.done = true ∧ t.lastOp = w.extractLsb' 0 8 ∧ t.statusReserved = 0 ∧ t.err.toNat ≤ 6) ∧
  (∀ s t : State, step s = .next t → t.status ≠ s.status →
    ∃ rest, s.hostAccesses = .reset :: rest ∨ ∃ w, s.hostAccesses = .regWrite 0x00 32 w :: rest) ∧
  ∀ s t : State, step s = .next t → s.done = true → t.done = false → ∃ rest, s.hostAccesses = .reset :: rest

/-- No command reads STATUS: none depends on the outcome of an earlier one (10_state.md section 4). -/
def Obligations.CommandsDoNotReadStatus : Prop :=
  ∀ (i : Instr) (s : State) (x : BitVec 17), exec i { s with status := x } = exec i s

/-- Which commands can report which error codes (60_exceptions.md section 1, the table's column "raised by"). -/
def Obligations.ErrorCodesByCommand : Prop :=
  ∀ (i : Instr) (s t : State), exec i s = .next t →
    match i with
    | .parseHdr => t.err ∈ ([0, 1, 2, 3, 6] : List (BitVec 4))
    | .resolveFmt => t.err ∈ ([0, 2] : List (BitVec 4))
    | .canvasGray => t.err ∈ ([0, 1] : List (BitVec 4))
    | .canvasRgb => t.err ∈ ([0, 1] : List (BitVec 4))
    | .canvasRgba => t.err ∈ ([0, 1] : List (BitVec 4))
    | .canvasBgra => t.err ∈ ([0, 1] : List (BitVec 4))
    | .canvasDxt1 => t.err ∈ ([0, 1] : List (BitVec 4))
    | .canvasDxt3 => t.err ∈ ([0, 1] : List (BitVec 4))
    | .canvasDxt5 => t.err ∈ ([0, 1] : List (BitVec 4))
    | .log2 => t.err = 0
    | .swzOffset => t.err ∈ ([0, 1] : List (BitVec 4))
    | .deswizzle => t.err ∈ ([0, 1, 3, 5, 6] : List (BitVec 4))
    | .dxt1Block => t.err ∈ ([0, 3, 5, 6] : List (BitVec 4))
    | .dxt3Block => t.err ∈ ([0, 3, 5, 6] : List (BitVec 4))
    | .dxt5Block => t.err ∈ ([0, 3, 5, 6] : List (BitVec 4))
    | .dxt1Surface => t.err ∈ ([0, 1, 3, 5, 6] : List (BitVec 4))
    | .dxt3Surface => t.err ∈ ([0, 1, 3, 5, 6] : List (BitVec 4))
    | .dxt5Surface => t.err ∈ ([0, 1, 3, 5, 6] : List (BitVec 4))

/-- The registers a command may write, per command (30_encoding.md section 1, the column "writes"): every other register, the parameters, the
host's accesses and the values read are unchanged, and so is all of memory for a command that stores nothing. -/
def Obligations.CommandWriteSet : Prop :=
  ∀ (i : Instr) (s t : State), exec i s = .next t →
    let hdr := i = .parseHdr
    let canvas := i ∈ [Instr.canvasGray, .canvasRgb, .canvasRgba, .canvasBgra, .canvasDxt1, .canvasDxt3, .canvasDxt5]
    let stores := i ∈ [Instr.deswizzle, .dxt1Block, .dxt3Block, .dxt5Block, .dxt1Surface, .dxt3Surface, .dxt5Surface]
    t = { s with
      status := t.status
      result := if i = .log2 ∨ i = .swzOffset then t.result else s.result
      fmt := if hdr ∨ i = .resolveFmt then t.fmt else s.fmt
      canvasDim := if canvas then t.canvasDim else s.canvasDim
      levelBytes := if canvas then t.levelBytes else s.levelBytes
      hdrDsize := if hdr then t.hdrDsize else s.hdrDsize
      hdrUnk1 := if hdr then t.hdrUnk1 else s.hdrUnk1
      hdrDim := if hdr then t.hdrDim else s.hdrDim
      hdrInfo := if hdr then t.hdrInfo else s.hdrInfo
      mem := if stores then t.mem else s.mem }

/-- A command stores to no byte outside the destination region `[DST_ADDR, DST_ADDR + need)` of its rule, to none at all on an error, and a
successful command leaves every byte of its source region as it was (20_memory.md sections 1, 4 and 6). -/
def Obligations.CommandsStoreOnlyInTheDestination : Prop :=
  ∀ (i : Instr) (s t : State), exec i s = .next t →
    (∀ a, ¬(s.dstAddr.toNat ≤ a ∧ a < s.dstAddr.toNat + dstNeed i s) → t.mem.read a = s.mem.read a) ∧
    (t.err ≠ 0 → t.mem = s.mem) ∧
    (t.err = 0 → ∀ k, k < srcNeed i s → t.mem.read (s.srcAddr.toNat + k) = s.mem.read (s.srcAddr.toNat + k))

/-- Where every byte of the address space is admitted and SWZ_NONPOW2_H is `literal`, every command answers a next state on every register and
memory state (93_implementation_defined.md section 1). -/
def Obligations.AdmittedCommandsAlwaysComplete : Prop :=
  ∀ (w : Word) (s : State), s.allAdmitted → s.cfg.swzNonpow2H = .literal → ∃ t, runCommand w s = .next t

/-- No step changes the parameters (00_scope.md R8; holding them in State is the model's choice, log 3). -/
def Obligations.StepKeepsTheParameters : Prop :=
  ∀ s t : State, step s = .next t → t.cfg = s.cfg

/-- The invariant of the machine is kept by every step. What it says of the registers follows from the spec (10_state.md sections 4 and 5,
40_header_format.md section 4 for LEVEL_BYTES, 41_swizzle.md section 2 for RESULT); that memory keeps its canonical form is about the
model's own way to hold memory (log 2, DESIGN CHOICE). -/
def Obligations.StepKeepsTheInvariant : Prop :=
  ∀ s t : State, s.Inv → step s = .next t → t.Inv

/-- The invariant holds right after reset: every register is 0 by 70_reset_and_hazards.md section 1; that memory then lists no byte, and its
canonical form, are the model's own choice (log 2, DESIGN CHOICE). -/
def Obligations.ResetMeetsTheInvariant : Prop := State.reset.Inv

/-! ## Header parser, resolver, quantizer -/

/-- The rows of the format table, FMT values included (10_state.md section 5; the spec derives row 6). -/
def Obligations.FormatTableRows : Prop :=
  [Format.gray, .rgb, .rgba, .bgra, .dxt1, .dxt3, .dxt5].map
      (fun f => (formatCode f, formatQuant f, formatBpp f, formatKind f, formatSwz f, (fmtValue f).zeroExtend 32)) =
    ([(1, 1, 8, 0, 0, 0x00000811), (2, 1, 24, 0, 0, 0x00001812), (3, 1, 32, 0, 0, 0x00002013), (4, 1, 32, 0, 1, 0x00042014),
      (5, 4, 4, 1, 0, 0x00010445), (6, 4, 8, 2, 0, 0x00020846), (7, 4, 8, 3, 0, 0x00030847)] :
        List (BitVec 3 × Nat × Nat × BitVec 2 × BitVec 1 × BitVec 32))

/-- 40_header_format.md R103: the resolver's table, for pairwise distinct encoding values (00_scope.md R8); every other pair fails, and none
resolves to DXT3. -/
def Obligations.ResolverTable : Prop :=
  ∀ (c : Config) (enc : Byte) (comp : Bool), c.encDistinct = true →
    (∀ f, resolve c enc comp = some f ↔
      (f, enc, comp) ∈ [(Format.gray, c.encGray, false), (.rgb, c.encRgb, false), (.rgba, c.encRgba, false),
        (.bgra, c.encBgra, false), (.dxt1, c.encRgb, true), (.dxt5, c.encRgba, true)]) ∧
    (resolve c enc comp = none ↔
      (enc ∉ [c.encGray, c.encRgb, c.encRgba, c.encBgra] ∨ (comp = true ∧ enc ∉ [c.encRgb, c.encRgba]))) ∧
    resolve c enc comp ≠ some .dxt3

/-- 40_header_format.md R104: PARSE_HDR, its word, its results by the bytes of the header and its errors in check order. -/
def Obligations.ParseHdrResults : Prop :=
  decode 0x00000001 = .ok .parseHdr ∧ ∀ (s : State) (b : Nat → Byte), (∀ k, b k = s.mem.read (s.srcAddr.toNat + k)) →
    let dsize : Word := b 3 ++ (b 2 ++ (b 1 ++ b 0))
    let w : Half := b 9 ++ b 8
    let ht : Half := b 11 ++ b 10
    let comp : Bool := dsize != 0
    let fails (code : BitVec 4) : Prop := exec .parseHdr s = .next { s with status := statusWord code 0x01 }
    (s.srcLen.toNat < 128 → fails 3) ∧
    (128 ≤ s.srcLen.toNat → s.srcAddr.toNat + 128 > 2 ^ 32 → fails 6) ∧
    (128 ≤ s.srcLen.toNat → s.srcAddr.toNat + 128 ≤ 2 ^ 32 →
      (¬s.regionsAdmitted 128 0 → exec .parseHdr s = .fault .stuckUnadmitted) ∧
      (s.regionsAdmitted 128 0 →
        (w.toNat ≥ 0x8000 ∨ ht.toNat ≥ 0x8000 → fails 1) ∧
        (w.toNat < 0x8000 → ht.toNat < 0x8000 →
          (resolve s.cfg (b 12) comp = none → fails 2) ∧
          (∀ f, resolve s.cfg (b 12) comp = some f →
            exec .parseHdr s = .next { s with
              hdrDsize := dsize
              hdrUnk1 := b 7 ++ (b 6 ++ (b 5 ++ b 4))
              hdrDim := ht ++ w
              hdrInfo := BitVec.ofBool comp ++ (b 13 ++ b 12)
              fmt := fmtValue f
              status := statusWord 0 0x01 }))))

/-- 40_header_format.md R105: RESOLVE_FMT and its word; OPA bits [31:9] do not matter. -/
def Obligations.ResolveFmtResults : Prop :=
  decode 0x00000002 = .ok .resolveFmt ∧ ∀ s : State,
    (∀ f, resolve s.cfg (s.opa.extractLsb' 0 8) (s.opa.getLsbD 8) = some f →
      exec .resolveFmt s = .next { s with fmt := fmtValue f, status := statusWord 0 0x02 }) ∧
    (resolve s.cfg (s.opa.extractLsb' 0 8) (s.opa.getLsbD 8) = none →
      exec .resolveFmt s = .next { s with status := statusWord 2 0x02 })

/-- 40_header_format.md R111: the seven CANVAS words. Each row gives the quantization unit and the bits per pixel of its format. -/
def Obligations.CanvasResults : Prop :=
  ([1, 2, 3, 4, 5, 6, 7] : List Word).map (fun f : Word => (decode (0x00000003 ||| (f <<< 8))).toOption) =
    [some .canvasGray, some .canvasRgb, some .canvasRgba, some .canvasBgra, some .canvasDxt1, some .canvasDxt3, some .canvasDxt5] ∧
  ∀ p ∈ [(Instr.canvasGray, 1, 8), (.canvasRgb, 1, 24), (.canvasRgba, 1, 32), (.canvasBgra, 1, 32), (.canvasDxt1, 4, 4),
      (.canvasDxt3, 4, 8), (.canvasDxt5, 4, 8)],
    ∀ s : State,
      let q := p.2.1
      let cw := (max s.width.toNat 1 + q - 1) / q * q
      let ch := (max s.height.toNat 1 + q - 1) / q * q
      (s.dimsLegal → exec p.1 s = .next { s with
        canvasDim := BitVec.ofNat 16 ch ++ BitVec.ofNat 16 cw
        levelBytes := BitVec.ofNat 32 (cw * ch * p.2.2 / 8)
        status := statusWord 0 0x03 }) ∧
      (¬s.dimsLegal → exec p.1 s = .next { s with status := statusWord 1 0x03 })

/-- The bounds of CANVAS that 40_header_format.md section 4 derives: the canvas fits its half, the level size is a whole number of bytes and
fits 32 bits, so no result is truncated; a block format's level size is its block count times its block size. -/
def Obligations.CanvasResultsAreExact : Prop :=
  ∀ (f : Format) (w h : Nat), w < 0x8000 → h < 0x8000 →
    let cw := canvasSize w (formatQuant f)
    let ch := canvasSize h (formatQuant f)
    cw ≤ 0x8000 ∧ ch ≤ 0x8000 ∧ levelSize f w h * 8 = cw * ch * formatBpp f ∧ levelSize f w h ≤ 0xFFFC0004 ∧
    (BitVec.ofNat 16 cw).toNat = cw ∧ (BitVec.ofNat 16 ch).toNat = ch ∧ (BitVec.ofNat 32 (levelSize f w h)).toNat = levelSize f w h ∧
    (f = .dxt1 → levelSize f w h = blockCount w * blockCount h * 8) ∧
    (f = .dxt3 ∨ f = .dxt5 → levelSize f w h = blockCount w * blockCount h * 16)

/-- The canvas size is the least multiple of the quantization unit that is at least max(w, 1) (00_scope.md section 6, 40_header_format.md
section 4). -/
def Obligations.CanvasIsTheLeastMultiple : Prop :=
  ∀ w q : Nat, 0 < q →
    q ∣ canvasSize w q ∧ max w 1 ≤ canvasSize w q ∧ ∀ c, q ∣ c → max w 1 ≤ c → canvasSize w q ≤ c

/-! ## Log2 and swizzle -/

/-- LOG2 gives the floor of the base-2 logarithm, and 0 for 0 (41_swizzle.md section 1). -/
def Obligations.Log2GivesFloorLog : Prop :=
  ∀ s : State, exec .log2 s =
    .next { s with result := BitVec.ofNat 32 (Nat.log2 s.opa.toNat), status := statusWord 0 0x04 }

/-- Where each bit of the interleave comes from (41_swizzle.md section 2). -/
def Obligations.InterleaveBitSources : Prop :=
  ∀ x y wb hb j : Nat,
    (j < 2 * min wb hb → j % 2 = 0 → (interleave x y wb hb).testBit j = x.testBit (j / 2)) ∧
    (j < 2 * min wb hb → j % 2 = 1 → (interleave x y wb hb).testBit j = y.testBit (j / 2)) ∧
    (2 * hb ≤ j → j < wb + hb → (interleave x y wb hb).testBit j = x.testBit (j - hb)) ∧
    (2 * wb ≤ j → j < wb + hb → (interleave x y wb hb).testBit j = y.testBit (j - wb)) ∧
    (wb + hb ≤ j → (interleave x y wb hb).testBit j = false)

/-- The interleave is a bijection from the coordinates within the budgets onto the offsets below 2^(wb + hb) (41_swizzle.md section 3). -/
def Obligations.InterleaveIsBijective : Prop :=
  ∀ wb hb : Nat,
    (∀ x y, interleave x y wb hb < 2 ^ (wb + hb)) ∧
    (∀ x y x' y', x < 2 ^ wb → y < 2 ^ hb → x' < 2 ^ wb → y' < 2 ^ hb →
      interleave x y wb hb = interleave x' y' wb hb → x = x' ∧ y = y') ∧
    (∀ o, o < 2 ^ (wb + hb) → ∃ x y, x < 2 ^ wb ∧ y < 2 ^ hb ∧ interleave x y wb hb = o)

/-- SWZ_OFFSET: its offset, below 2^28, with the budgets as floor logarithms, and its one error (41_swizzle.md section 2). -/
def Obligations.SwzOffsetResults : Prop :=
  ∀ s : State,
    (s.dimsLegal →
      let o := interleave s.opa.toNat s.opb.toNat (Nat.log2 (max s.width.toNat 1)) (Nat.log2 (max s.height.toNat 1))
      o < 2 ^ 28 ∧ exec .swzOffset s = .next { s with result := BitVec.ofNat 32 o, status := statusWord 0 0x05 }) ∧
    (¬s.dimsLegal → exec .swzOffset s = .next { s with status := statusWord 1 0x05 })

/-- DESWIZZLE on a power-of-two width: each destination pixel takes the four bytes at its interleaved source offset, and nothing else changes
(41_swizzle.md section 3). The height may be any under `literal`; under `refuse` it is a power of two. -/
def Obligations.DeswizzleReordersPixels : Prop :=
  ∀ (s : State) (e : Nat), s.width.toNat = 2 ^ e → s.dimsLegal →
    (s.cfg.swzNonpow2H = .literal ∨ ∃ d, max s.height.toNat 1 = 2 ^ d) →
    s.regionsReady (s.width.toNat * max s.height.toNat 1 * 4) (s.width.toNat * max s.height.toNat 1 * 4) →
    ∃ m, exec .deswizzle s = .next { s with mem := m, status := statusWord 0 0x06 } ∧
      (∀ x y k, x < s.width.toNat → y < max s.height.toNat 1 → k < 4 →
        m.read (s.dstAddr.toNat + (y * s.width.toNat + x) * 4 + k) =
          s.mem.read (s.srcAddr.toNat + interleave x y e (Nat.log2 (max s.height.toNat 1)) * 4 + k)) ∧
      ∀ a, ¬(s.dstAddr.toNat ≤ a ∧ a < s.dstAddr.toNat + s.width.toNat * max s.height.toNat 1 * 4) → m.read a = s.mem.read a

/-- DESWIZZLE on any other width, 0 included: the bytes pass unchanged (41_swizzle.md section 3). -/
def Obligations.DeswizzleCopiesOtherWidths : Prop :=
  ∀ s : State, (∀ e, s.width.toNat ≠ 2 ^ e) → s.dimsLegal →
    s.regionsReady (max s.width.toNat 1 * max s.height.toNat 1 * 4) (max s.width.toNat 1 * max s.height.toNat 1 * 4) →
    ∃ m, exec .deswizzle s = .next { s with mem := m, status := statusWord 0 0x06 } ∧
      (∀ k, k < max s.width.toNat 1 * max s.height.toNat 1 * 4 →
        m.read (s.dstAddr.toNat + k) = s.mem.read (s.srcAddr.toNat + k)) ∧
      ∀ a, ¬(s.dstAddr.toNat ≤ a ∧ a < s.dstAddr.toNat + max s.width.toNat 1 * max s.height.toNat 1 * 4) → m.read a = s.mem.read a

/-- DESWIZZLE of a canvas whose sides are powers of two is a permutation: every source pixel stands at exactly one destination pixel, its four
bytes in their order (41_swizzle.md section 3). -/
def Obligations.DeswizzleIsAPermutation : Prop :=
  ∀ (s t : State) (e d : Nat), s.width.toNat = 2 ^ e → max s.height.toNat 1 = 2 ^ d →
    exec .deswizzle s = .next t → t.err = 0 →
    ∃ place : Nat → Nat,
      (∀ o, o < 2 ^ (e + d) → place o < 2 ^ (e + d) ∧
        ∀ k, k < 4 → t.mem.read (s.dstAddr.toNat + place o * 4 + k) = s.mem.read (s.srcAddr.toNat + o * 4 + k)) ∧
      (∀ o o', o < 2 ^ (e + d) → o' < 2 ^ (e + d) → place o = place o' → o = o') ∧
      ∀ x y, x < 2 ^ e → y < 2 ^ d → place (interleave x y e d) = y * 2 ^ e + x

/-- DESWIZZLE of a power-of-two width and a canvas height that is none: under `literal` a destination row repeats with period
2^(floor log2 of the height); under `refuse` the model refuses (41_swizzle.md section 3). -/
def Obligations.DeswizzleNonPow2Height : Prop :=
  ∀ (s : State) (e : Nat), s.width.toNat = 2 ^ e → (∀ d, max s.height.toNat 1 ≠ 2 ^ d) →
    (∀ t, exec .deswizzle s = .next t → t.err = 0 →
      ∀ x y k, x < s.width.toNat → y < max s.height.toNat 1 → k < 4 →
        t.mem.read (s.dstAddr.toNat + (y * s.width.toNat + x) * 4 + k) =
          t.mem.read (s.dstAddr.toNat + (y % 2 ^ Nat.log2 (max s.height.toNat 1) * s.width.toNat + x) * 4 + k)) ∧
    (s.cfg.swzNonpow2H = .refuse → s.dimsLegal →
      s.regionsReady (s.width.toNat * max s.height.toNat 1 * 4) (s.width.toNat * max s.height.toNat 1 * 4) →
        exec .deswizzle s = .refused .nonpow2Height)

/-! ## Colours, palettes and blocks -/

/-- The 565 colour (42_block_decompress.md section 1): red in bits [15:11], green in [10:5], blue in [4:0], alpha 255; and what each EXPAND565
makes of a channel: `replicate` repeats its top bits below it, `shift` appends zeros, `truncate` and `round` give the floor and the
nearest integer of v * 255 / 31 and v * 255 / 63. -/
def Obligations.ChannelExpansions : Prop :=
  (∀ (m : Expand565) (c : Half),
    (expand m c.toNat).r = BitVec.ofNat 8 (expand5 m (c.extractLsb' 11 5).toNat) ∧
    (expand m c.toNat).g = BitVec.ofNat 8 (expand6 m (c.extractLsb' 5 6).toNat) ∧
    (expand m c.toNat).b = BitVec.ofNat 8 (expand5 m (c.extractLsb' 0 5).toNat) ∧
    (expand m c.toNat).a = 255) ∧
  (∀ v, v < 32 → expand5 .replicate v = 8 * v + v / 4 ∧ expand5 .shift v = 8 * v ∧
    31 * expand5 .truncate v ≤ v * 255 ∧ v * 255 < 31 * (expand5 .truncate v + 1) ∧
    2 * (v * 255) ≤ (2 * expand5 .round v + 1) * 31 ∧ (2 * expand5 .round v) * 31 ≤ 2 * (v * 255) + 31) ∧
  (∀ v, v < 64 → expand6 .replicate v = 4 * v + v / 16 ∧ expand6 .shift v = 4 * v ∧
    63 * expand6 .truncate v ≤ v * 255 ∧ v * 255 < 63 * (expand6 .truncate v + 1) ∧
    2 * (v * 255) ≤ (2 * expand6 .round v + 1) * 63 ∧ (2 * expand6 .round v) * 63 ≤ 2 * (v * 255) + 63) ∧
  (∀ m : Expand565, expand5 m 0 = 0 ∧ expand6 m 0 = 0) ∧
  (∀ m : Expand565, expand5 m 31 = (if m = .shift then 248 else 255) ∧ expand6 m 63 = (if m = .shift then 252 else 255)) ∧
  (∀ m : Expand565, ∀ v, (v < 32 → expand5 m v ≤ 255) ∧ (v < 64 → expand6 m v ≤ 255)) ∧
  (∀ v, v < 32 → (expand5 .replicate v ≠ expand5 .round v ↔ v ∈ [3, 7, 24, 28]))

/-- The colour blends are round-to-nearest of their weights; a tie of the half blend goes the way BLEND_TIE names; blending a value with itself
gives it back (42_block_decompress.md section 1). -/
def Obligations.BlendsRoundToNearest : Prop :=
  ∀ a b : Nat, a ≤ 255 → b ≤ 255 →
    (2 * (2 * a + b) < 3 * (2 * third a b + 1) ∧ 3 * (2 * third a b) < 2 * (2 * a + b) + 3 ∧ third a b ≤ 255) ∧
    (2 * (a + 2 * b) < 3 * (2 * twothirds a b + 1) ∧ 3 * (2 * twothirds a b) < 2 * (a + 2 * b) + 3 ∧ twothirds a b ≤ 255) ∧
    (∀ t, a + b ≤ 2 * half t a b + 1 ∧ 2 * half t a b ≤ a + b + 1 ∧ half t a b ≤ 255) ∧
    ((a + b) % 2 = 1 → 2 * half .halfUp a b = a + b + 1 ∧ 2 * half .truncate a b + 1 = a + b ∧ half .halfEven a b % 2 = 0) ∧
    (third a a = a ∧ twothirds a a = a ∧ ∀ t, half t a a = a)

/-- The alpha palette of DXT5: endpoints at 0 and 1, then round-to-nearest of the sevenths or the fifths, then 0 and 255
(42_block_decompress.md section 2). -/
def Obligations.AlphaPaletteEntries : Prop :=
  ∀ a0 a1 : Nat, a0 ≤ 255 → a1 ≤ 255 →
    (alphaPalette a0 a1).length = 8 ∧ (alphaPalette a0 a1).getD 0 0 = a0 ∧ (alphaPalette a0 a1).getD 1 0 = a1 ∧
    (a0 > a1 → ∀ i, 2 ≤ i → i ≤ 7 →
      2 * ((8 - i) * a0 + (i - 1) * a1) < 7 * (2 * (alphaPalette a0 a1).getD i 0 + 1) ∧
      7 * (2 * (alphaPalette a0 a1).getD i 0) < 2 * ((8 - i) * a0 + (i - 1) * a1) + 7) ∧
    (a0 ≤ a1 → (∀ i, 2 ≤ i → i ≤ 5 →
      2 * ((6 - i) * a0 + (i - 1) * a1) < 5 * (2 * (alphaPalette a0 a1).getD i 0 + 1) ∧
      5 * (2 * (alphaPalette a0 a1).getD i 0) < 2 * ((6 - i) * a0 + (i - 1) * a1) + 5) ∧
      (alphaPalette a0 a1).getD 6 0 = 0 ∧ (alphaPalette a0 a1).getD 7 0 = 255) ∧
    ∀ v ∈ alphaPalette a0 a1, v ≤ 255

/-- The palettes, entry by entry and channel by channel (42_block_decompress.md sections 1 and 6): the four-colour palette, which DXT3 and DXT5
use in any order of c0 and c1 and DXT1 when c0 > c1; else DXT1 blends half and half and holds transparent black at index 3. Equal
colours give that colour at index 2 under every BLEND_TIE; every entry but transparent black is opaque. -/
def Obligations.PaletteModes : Prop :=
  ∀ (c : Config) (c0 c1 : Nat),
    let p := expand c.expand565 c0
    let q := expand c.expand565 c1
    let mixes (f : Nat → Nat → Nat) (e : Pixel) : Prop :=
      e.r.toNat = f p.r.toNat q.r.toNat ∧ e.g.toNat = f p.g.toNat q.g.toNat ∧ e.b.toNat = f p.b.toNat q.b.toNat ∧
        e.a.toNat = f p.a.toNat q.a.toNat
    (∃ e2 e3, palette4 c c0 c1 = [p, q, e2, e3] ∧ mixes third e2 ∧ mixes twothirds e3) ∧
    (c0 > c1 → ∃ e2 e3, palette1 c c0 c1 = [p, q, e2, e3] ∧ mixes third e2 ∧ mixes twothirds e3) ∧
    (c0 ≤ c1 → ∃ e2, palette1 c c0 c1 = [p, q, e2, ⟨0, 0, 0, 0⟩] ∧ mixes (half c.blendTie) e2) ∧
    (c0 = c1 → (palette1 c c0 c1).getD 2 Pixel.clear = p) ∧
    (∀ e ∈ palette4 c c0 c1, e.a = 255) ∧ (∀ e ∈ (palette1 c c0 c1).take 3, e.a = 255)

/-- Pixel i = 4r + k of a block, by the bytes of the block (42_block_decompress.md section 2): in a DXT1 block byte 4 + r holds row r with
column k in bits [2k+1:2k]; in the other kinds byte 12 + r does; the DXT3 nibble of pixel i is in byte i / 2, the even pixel's in the low half,
and becomes the top half of alpha; the three bits of the DXT5 alpha index of pixel i are bits 3i to 3i + 2 of bytes 2 to 7. -/
def Obligations.BlockPixelsByTheirBytes : Prop :=
  ∀ (c : Config) (b : List Byte) (r k : Nat), r < 4 → k < 4 →
    let at_ (n : Nat) : Nat := (b.getD n 0).toNat
    let i := 4 * r + k
    (b.length = 8 →
      (decodeBlock c .dxt1 b).getD i Pixel.clear =
        (palette1 c (at_ 0 + 256 * at_ 1) (at_ 2 + 256 * at_ 3)).getD (at_ (4 + r) / 2 ^ (2 * k) % 4) Pixel.clear) ∧
    (b.length = 16 →
      let colour := (palette4 c (at_ 8 + 256 * at_ 9) (at_ 10 + 256 * at_ 11)).getD (at_ (12 + r) / 2 ^ (2 * k) % 4) Pixel.clear
      (decodeBlock c .dxt3 b).getD i Pixel.clear =
        { colour with a := BitVec.ofNat 8 (at_ (i / 2) / (if i % 2 = 0 then 1 else 16) % 16 * 16) } ∧
      ∃ j, j < 8 ∧
        (∀ n, n < 3 → j.testBit n = (at_ (2 + (3 * i + n) / 8)).testBit ((3 * i + n) % 8)) ∧
        (decodeBlock c .dxt5 b).getD i Pixel.clear =
          { colour with a := BitVec.ofNat 8 ((alphaPalette (at_ 0) (at_ 1)).getD j 0) })

/-- The single-block commands complete when their regions are ready, with the output layout of 42_block_decompress.md R163: 16 pixels, row 0
first, no flip, no clip; nothing else changes. The four bytes of a pixel are those of R158: R, G, B, A or, under OUT_ORDER = BGRA,
B, G, R, A. Each row gives the instruction, its kind, its block size and its opcode. -/
def Obligations.BlockCommandsWriteSixteenPixels : Prop :=
  (∀ p : Pixel, pixelBytes .rgba p = [p.r, p.g, p.b, p.a] ∧ pixelBytes .bgra p = [p.b, p.g, p.r, p.a]) ∧
  ∀ p ∈ ([(.dxt1Block, .dxt1, 8, 0x10), (.dxt3Block, .dxt3, 16, 0x11), (.dxt5Block, .dxt5, 16, 0x12)] :
      List (Instr × BlockKind × Nat × Byte)),
    ∀ s : State, s.regionsReady p.2.2.1 64 →
      ∃ m, exec p.1 s = .next { s with mem := m, status := statusWord 0 p.2.2.2 } ∧
        (∀ i c, i < 16 → c < 4 →
          m.read (s.dstAddr.toNat + 4 * i + c) =
            (pixelBytes s.cfg.outOrder
              ((decodeBlock s.cfg p.2.1 (s.mem.readBytes s.srcAddr.toNat p.2.2.1)).getD i Pixel.clear)).getD c 0) ∧
        ∀ a, ¬(s.dstAddr.toNat ≤ a ∧ a < s.dstAddr.toNat + 64) → m.read a = s.mem.read a

/-- The surface commands complete when the dimensions are legal and their regions are ready: pixel (x, y) of the image, y counted top-down, comes from
block (x / 4, y / 4) and stands in destination row H - 1 - y; every byte outside the W * H * 4 bytes is unchanged
(42_block_decompress.md sections 4 and 5). -/
def Obligations.SurfaceCommandsFlipAndClip : Prop :=
  ∀ p ∈ ([(.dxt1Surface, .dxt1, 8, 0x18), (.dxt3Surface, .dxt3, 16, 0x19), (.dxt5Surface, .dxt5, 16, 0x1A)] :
      List (Instr × BlockKind × Nat × Byte)),
    ∀ s : State, s.dimsLegal →
      let w := s.width.toNat
      let h := s.height.toNat
      let bw := (max w 1 + 3) / 4
      let bh := (max h 1 + 3) / 4
      s.regionsReady (bw * bh * p.2.2.1) (w * h * 4) →
      ∃ m, exec p.1 s = .next { s with mem := m, status := statusWord 0 p.2.2.2 } ∧
        (∀ x y c, x < w → y < h → c < 4 →
          m.read (s.dstAddr.toNat + ((h - 1 - y) * w + x) * 4 + c) =
            (pixelBytes s.cfg.outOrder
              ((decodeBlock s.cfg p.2.1
                (s.mem.readBytes (s.srcAddr.toNat + (y / 4 * bw + x / 4) * p.2.2.1) p.2.2.1)).getD (4 * (y % 4) + x % 4) Pixel.clear)).getD c 0) ∧
        ∀ a, ¬(s.dstAddr.toNat ≤ a ∧ a < s.dstAddr.toNat + w * h * 4) → m.read a = s.mem.read a

/-- A surface with no column or no row writes no byte but still needs its source (42_block_decompress.md section 5). -/
def Obligations.EmptySurfaceWritesNothing : Prop :=
  ∀ p ∈ ([(.dxt1Surface, 8, 0x18), (.dxt3Surface, 16, 0x19), (.dxt5Surface, 16, 0x1A)] : List (Instr × Nat × Byte)),
    ∀ s : State, s.dimsLegal → s.width = 0 ∨ s.height = 0 →
      let ns := ((max s.width.toNat 1 + 3) / 4) * ((max s.height.toNat 1 + 3) / 4) * p.2.1
      (s.regionsReady ns 0 → exec p.1 s = .next { s with status := statusWord 0 p.2.2 }) ∧
      (s.srcLen.toNat < ns → exec p.1 s = .next { s with status := statusWord 3 p.2.2 })

/-- A decoder's destination bytes depend only on its source bytes, WIDTH and HEIGHT for a surface, and the parameters EXPAND565, BLEND_TIE and
OUT_ORDER, wherever source and destination lie; and BLEND_TIE matters to DXT1 only (42_block_decompress.md section 6). -/
def Obligations.DecodersArePureFunctions : Prop :=
  ∀ i ∈ [Instr.dxt1Block, .dxt3Block, .dxt5Block, .dxt1Surface, .dxt3Surface, .dxt5Surface],
    ∀ s s' t t' : State,
      (readsDims i = true → s.width = s'.width ∧ s.height = s'.height) →
      s.cfg.expand565 = s'.cfg.expand565 → s.cfg.outOrder = s'.cfg.outOrder →
      (i = .dxt1Block ∨ i = .dxt1Surface → s.cfg.blendTie = s'.cfg.blendTie) →
      (∀ k, k < srcNeed i s → s.mem.read (s.srcAddr.toNat + k) = s'.mem.read (s'.srcAddr.toNat + k)) →
      exec i s = .next t → t.err = 0 → exec i s' = .next t' → t'.err = 0 →
      ∀ k, k < dstNeed i s → t.mem.read (s.dstAddr.toNat + k) = t'.mem.read (s'.dstAddr.toNat + k)
end

