-- ==== Sys2Proof/Laws/Memory.lean ====
section
/-! SUPPORT. The laws of memory: what a read after a write gives, and that a write keeps the canonical form. -/
namespace Sys2Proof.Machine

theorem Memory.read_nil (a : Nat) : Memory.read [] a = unlistedByte := rfl

theorem Memory.read_cons (c : Host.Cell) (m : Memory) (a : Nat) :
    Memory.read (c :: m) a = if c.1 = a then c.2 else Memory.read m a := by
  unfold Memory.read
  by_cases h : c.1 = a <;> simp [h]

/-- A cell that the tested address passes does not matter. -/
theorem Memory.read_append_of_ne (l m : Memory) (a : Nat) (h : ∀ c ∈ l, c.1 ≠ a) :
    Memory.read (l ++ m) a = Memory.read m a := by
  induction l with
  | nil => rfl
  | cons c l ih =>
    rw [List.cons_append, read_cons, if_neg (h c (by simp)), ih fun d hd => h d (by simp [hd])]

/-- Reading past a list whose cells lie elsewhere on the right. -/
theorem Memory.read_append_of_ne_right (l m : Memory) (a : Nat) (h : ∀ c ∈ m, c.1 ≠ a) :
    Memory.read (l ++ m) a = Memory.read l a := by
  induction l with
  | nil =>
    rw [List.nil_append, ← List.append_nil m, read_append_of_ne m [] a h]
  | cons c l ih => rw [List.cons_append, read_cons, read_cons, ih]

/-- A filter that keeps every cell of an address does not change what it reads. -/
theorem Memory.read_filter (m : Memory) (p : Host.Cell → Bool) (a : Nat) (h : ∀ c ∈ m, c.1 = a → p c = true) :
    Memory.read (m.filter p) a = Memory.read m a := by
  induction m with
  | nil => rfl
  | cons c m ih =>
    have ih' := ih fun d hd => h d (by simp [hd])
    by_cases hp : p c = true
    · rw [List.filter_cons_of_pos hp, read_cons, read_cons, ih']
    · have hne : c.1 ≠ a := fun hc => hp (h c (by simp) hc)
      rw [List.filter_cons_of_neg hp, read_cons, if_neg hne, ih']

theorem Memory.cells_bounds (a : Nat) (bs : List Byte) :
    ∀ c ∈ Memory.cells a bs, a ≤ c.1 ∧ c.1 < a + bs.length ∧ c.2 ≠ unlistedByte := by
  induction bs generalizing a with
  | nil => simp [Memory.cells]
  | cons b bs ih =>
    intro c hc
    simp only [Memory.cells] at hc
    simp only [List.length_cons]
    split at hc
    · have h := ih (a + 1) c hc
      exact ⟨by omega, by omega, h.2.2⟩
    · rcases List.mem_cons.mp hc with rfl | hc
      · exact ⟨le_refl _, by simp, by assumption⟩
      · have h := ih (a + 1) c hc
        exact ⟨by omega, by omega, h.2.2⟩

theorem Memory.read_cells (a : Nat) (bs : List Byte) (x : Nat) (h : a ≤ x) :
    Memory.read (Memory.cells a bs) x = bs.getD (x - a) unlistedByte := by
  induction bs generalizing a with
  | nil => simp [Memory.cells, Memory.read_nil]
  | cons b bs ih =>
    by_cases hx : x = a
    · subst hx
      simp only [Memory.cells]
      split
      · next hb =>
        have hne : ∀ c ∈ Memory.cells (x + 1) bs, c.1 ≠ x := fun c hc => by
          have := Memory.cells_bounds (x + 1) bs c hc
          omega
        rw [← List.append_nil (Memory.cells (x + 1) bs), Memory.read_append_of_ne _ _ _ hne]
        simp [Memory.read_nil, hb]
      · simp [Memory.read_cons]
    · have hax : a + 1 ≤ x := by omega
      have hs : x - a = (x - (a + 1)) + 1 := by omega
      simp only [Memory.cells]
      split
      · rw [ih _ hax, hs, List.getD_cons_succ]
      · rw [Memory.read_cons, if_neg (by simpa using fun h => hx h.symm), ih _ hax, hs, List.getD_cons_succ]

/-- What a read after a write gives, everywhere in memory (20_memory.md R55, R64). -/
theorem Memory.read_writeBytes (m : Memory) (a : Nat) (bs : List Byte) (x : Nat) :
    (m.writeBytes a bs).read x = if a ≤ x ∧ x < a + bs.length then bs.getD (x - a) unlistedByte else m.read x := by
  unfold Memory.writeBytes
  by_cases h₁ : a ≤ x
  · rw [List.append_assoc, Memory.read_append_of_ne _ _ _ (by
      intro c hc
      have := (List.mem_filter.mp hc).2
      simp at this
      omega)]
    by_cases h₂ : x < a + bs.length
    · rw [if_pos ⟨h₁, h₂⟩, Memory.read_append_of_ne_right _ _ _ (by
        intro c hc
        have := (List.mem_filter.mp hc).2
        simp at this
        omega), Memory.read_cells _ _ _ h₁]
    · rw [if_neg (by omega), Memory.read_append_of_ne _ _ _ (by
        intro c hc
        have := Memory.cells_bounds a bs c hc
        omega)]
      exact Memory.read_filter _ _ _ fun c _ hc => by simp; omega
  · rw [if_neg (by omega), List.append_assoc, Memory.read_append_of_ne_right _ _ _ (by
      intro c hc
      rcases List.mem_append.mp hc with hc | hc
      · have := Memory.cells_bounds a bs c hc
        omega
      · have := (List.mem_filter.mp hc).2
        simp at this
        omega)]
    exact Memory.read_filter _ _ _ fun c _ hc => by simp; omega

theorem Memory.cells_pairwise (a : Nat) (bs : List Byte) :
    (Memory.cells a bs).Pairwise fun c d => c.1 < d.1 := by
  induction bs generalizing a with
  | nil => simp [Memory.cells]
  | cons b bs ih =>
    simp only [Memory.cells]
    split
    · exact ih _
    · refine List.pairwise_cons.mpr ⟨fun d hd => ?_, ih _⟩
      have := Memory.cells_bounds (a + 1) bs d hd
      show a < d.1
      omega

/-- A write inside the address space keeps the canonical form. -/
theorem Memory.wf_writeBytes (m : Memory) (a : Nat) (bs : List Byte) (hm : m.wf) (h : a + bs.length ≤ 2 ^ 32) :
    (m.writeBytes a bs).wf := by
  obtain ⟨hp, hc⟩ := hm
  constructor
  · unfold Memory.writeBytes
    simp only [List.pairwise_append]
    refine ⟨⟨hp.filter _, Memory.cells_pairwise a bs, ?_⟩, hp.filter _, ?_⟩
    · intro c hcm d hd
      have h₁ := (List.mem_filter.mp hcm).2
      have h₂ := Memory.cells_bounds a bs d hd
      simp at h₁
      omega
    · intro c hcm d hd
      have h₂ := (List.mem_filter.mp hd).2
      simp at h₂
      rcases List.mem_append.mp hcm with hcm | hcm
      · have h₁ := (List.mem_filter.mp hcm).2
        simp at h₁
        omega
      · have h₁ := Memory.cells_bounds a bs c hcm
        omega
  · intro c hcm
    unfold Memory.writeBytes at hcm
    rcases List.mem_append.mp hcm with hcm | hcm
    · rcases List.mem_append.mp hcm with hcm | hcm
      · exact hc c (List.mem_filter.mp hcm).1
      · have h₁ := Memory.cells_bounds a bs c hcm
        exact ⟨h₁.2.2, by omega⟩
    · exact hc c (List.mem_filter.mp hcm).1

theorem Memory.wf_nil : Memory.wf [] := by decide

theorem Memory.read_eq_unlisted_of_lt (m : Memory) (a : Nat) (h : ∀ c ∈ m, a < c.1) : m.read a = unlistedByte := by
  rw [← List.append_nil m, Memory.read_append_of_ne m [] a fun c hc => by have := h c hc; omega]
  rfl

/-- Canonical memories that read alike everywhere are equal data. -/
theorem Memory.ext_of_wf : ∀ (m m' : Memory), m.wf → m'.wf → (∀ a, m.read a = m'.read a) → m = m'
  | [], [], _, _, _ => rfl
  | [], c :: m', _, h', hr => by
    have h := hr c.1
    rw [Memory.read_nil, Memory.read_cons, if_pos rfl] at h
    exact absurd h.symm (h'.2 c (by simp)).1
  | c :: m, [], h', _, hr => by
    have h := hr c.1
    rw [Memory.read_nil, Memory.read_cons, if_pos rfl] at h
    exact absurd h (h'.2 c (by simp)).1
  | c :: m, d :: m', hm, hm', hr => by
    have hc := List.pairwise_cons.mp hm.1
    have hd := List.pairwise_cons.mp hm'.1
    have hcn := (hm.2 c (by simp)).1
    have hdn := (hm'.2 d (by simp)).1
    have key : c.1 = d.1 := by
      rcases Nat.lt_trichotomy c.1 d.1 with hlt | heq | hgt
      · have h := hr c.1
        rw [Memory.read_cons, if_pos rfl, Memory.read_eq_unlisted_of_lt (d :: m') c.1] at h
        · exact absurd h hcn
        · intro e he
          rcases List.mem_cons.mp he with rfl | he
          · exact hlt
          · exact Nat.lt_trans hlt (hd.1 e he)
      · exact heq
      · have h := hr d.1
        rw [Memory.read_cons d, if_pos rfl, Memory.read_eq_unlisted_of_lt (c :: m) d.1] at h
        · exact absurd h.symm hdn
        · intro e he
          rcases List.mem_cons.mp he with rfl | he
          · exact hgt
          · exact Nat.lt_trans hgt (hc.1 e he)
    have hval : c.2 = d.2 := by
      have h := hr c.1
      rwa [Memory.read_cons, if_pos rfl, Memory.read_cons, if_pos key.symm] at h
    have htail : m = m' := by
      refine Memory.ext_of_wf m m' ⟨hc.2, fun e he => hm.2 e (by simp [he])⟩ ⟨hd.2, fun e he => hm'.2 e (by simp [he])⟩ ?_
      intro a
      by_cases ha : a = c.1
      · subst ha
        rw [Memory.read_eq_unlisted_of_lt m c.1 hc.1, Memory.read_eq_unlisted_of_lt m' c.1 (key ▸ hd.1)]
      · have h := hr a
        rwa [Memory.read_cons, if_neg (fun e => ha e.symm), Memory.read_cons, if_neg (fun e => ha (key ▸ e.symm))] at h
    rw [htail, Prod.ext key hval]

@[simp] theorem Memory.readBytes_length (m : Memory) (a n : Nat) : (m.readBytes a n).length = n := by
  simp [Memory.readBytes]

theorem Memory.readBytes_getD (m : Memory) (a n k : Nat) (d : Byte) (h : k < n) :
    (m.readBytes a n).getD k d = m.read (a + k) := by
  simp [Memory.readBytes, List.getD, h]

/-- A snapshot depends only on the bytes of its region. -/
theorem Memory.readBytes_congr (m m' : Memory) (a n : Nat) (h : ∀ k, k < n → m.read (a + k) = m'.read (a + k)) :
    m.readBytes a n = m'.readBytes a n := by
  simp only [Memory.readBytes, List.map_inj_left, List.mem_range]
  exact fun k hk => h k hk

end Sys2Proof.Machine
end

