-- ==== Sys2Proof/Laws/State.lean ====
section
/-! SUPPORT. One lemma per field per named update of the state, each true by rfl. -/
namespace Sys2Proof.Machine

variable (s : State)

/-! ## setStatus -/

@[simp] theorem State.setStatus_cfg (v : BitVec 17) : (s.setStatus v).cfg = s.cfg := rfl
@[simp] theorem State.setStatus_status (v : BitVec 17) : (s.setStatus v).status = v := rfl
@[simp] theorem State.setStatus_srcAddr (v : BitVec 17) : (s.setStatus v).srcAddr = s.srcAddr := rfl
@[simp] theorem State.setStatus_srcLen (v : BitVec 17) : (s.setStatus v).srcLen = s.srcLen := rfl
@[simp] theorem State.setStatus_dstAddr (v : BitVec 17) : (s.setStatus v).dstAddr = s.dstAddr := rfl
@[simp] theorem State.setStatus_dstLen (v : BitVec 17) : (s.setStatus v).dstLen = s.dstLen := rfl
@[simp] theorem State.setStatus_width (v : BitVec 17) : (s.setStatus v).width = s.width := rfl
@[simp] theorem State.setStatus_height (v : BitVec 17) : (s.setStatus v).height = s.height := rfl
@[simp] theorem State.setStatus_opa (v : BitVec 17) : (s.setStatus v).opa = s.opa := rfl
@[simp] theorem State.setStatus_opb (v : BitVec 17) : (s.setStatus v).opb = s.opb := rfl
@[simp] theorem State.setStatus_result (v : BitVec 17) : (s.setStatus v).result = s.result := rfl
@[simp] theorem State.setStatus_fmt (v : BitVec 17) : (s.setStatus v).fmt = s.fmt := rfl
@[simp] theorem State.setStatus_canvasDim (v : BitVec 17) : (s.setStatus v).canvasDim = s.canvasDim := rfl
@[simp] theorem State.setStatus_levelBytes (v : BitVec 17) : (s.setStatus v).levelBytes = s.levelBytes := rfl
@[simp] theorem State.setStatus_hdrDsize (v : BitVec 17) : (s.setStatus v).hdrDsize = s.hdrDsize := rfl
@[simp] theorem State.setStatus_hdrUnk1 (v : BitVec 17) : (s.setStatus v).hdrUnk1 = s.hdrUnk1 := rfl
@[simp] theorem State.setStatus_hdrDim (v : BitVec 17) : (s.setStatus v).hdrDim = s.hdrDim := rfl
@[simp] theorem State.setStatus_hdrInfo (v : BitVec 17) : (s.setStatus v).hdrInfo = s.hdrInfo := rfl
@[simp] theorem State.setStatus_mem (v : BitVec 17) : (s.setStatus v).mem = s.mem := rfl
@[simp] theorem State.setStatus_hostAccesses (v : BitVec 17) : (s.setStatus v).hostAccesses = s.hostAccesses := rfl
@[simp] theorem State.setStatus_reads (v : BitVec 17) : (s.setStatus v).reads = s.reads := rfl

/-! ## setResult -/

@[simp] theorem State.setResult_cfg (v : Word) : (s.setResult v).cfg = s.cfg := rfl
@[simp] theorem State.setResult_status (v : Word) : (s.setResult v).status = s.status := rfl
@[simp] theorem State.setResult_srcAddr (v : Word) : (s.setResult v).srcAddr = s.srcAddr := rfl
@[simp] theorem State.setResult_srcLen (v : Word) : (s.setResult v).srcLen = s.srcLen := rfl
@[simp] theorem State.setResult_dstAddr (v : Word) : (s.setResult v).dstAddr = s.dstAddr := rfl
@[simp] theorem State.setResult_dstLen (v : Word) : (s.setResult v).dstLen = s.dstLen := rfl
@[simp] theorem State.setResult_width (v : Word) : (s.setResult v).width = s.width := rfl
@[simp] theorem State.setResult_height (v : Word) : (s.setResult v).height = s.height := rfl
@[simp] theorem State.setResult_opa (v : Word) : (s.setResult v).opa = s.opa := rfl
@[simp] theorem State.setResult_opb (v : Word) : (s.setResult v).opb = s.opb := rfl
@[simp] theorem State.setResult_result (v : Word) : (s.setResult v).result = v := rfl
@[simp] theorem State.setResult_fmt (v : Word) : (s.setResult v).fmt = s.fmt := rfl
@[simp] theorem State.setResult_canvasDim (v : Word) : (s.setResult v).canvasDim = s.canvasDim := rfl
@[simp] theorem State.setResult_levelBytes (v : Word) : (s.setResult v).levelBytes = s.levelBytes := rfl
@[simp] theorem State.setResult_hdrDsize (v : Word) : (s.setResult v).hdrDsize = s.hdrDsize := rfl
@[simp] theorem State.setResult_hdrUnk1 (v : Word) : (s.setResult v).hdrUnk1 = s.hdrUnk1 := rfl
@[simp] theorem State.setResult_hdrDim (v : Word) : (s.setResult v).hdrDim = s.hdrDim := rfl
@[simp] theorem State.setResult_hdrInfo (v : Word) : (s.setResult v).hdrInfo = s.hdrInfo := rfl
@[simp] theorem State.setResult_mem (v : Word) : (s.setResult v).mem = s.mem := rfl
@[simp] theorem State.setResult_hostAccesses (v : Word) : (s.setResult v).hostAccesses = s.hostAccesses := rfl
@[simp] theorem State.setResult_reads (v : Word) : (s.setResult v).reads = s.reads := rfl

/-! ## setFmt -/

@[simp] theorem State.setFmt_cfg (v : BitVec 19) : (s.setFmt v).cfg = s.cfg := rfl
@[simp] theorem State.setFmt_status (v : BitVec 19) : (s.setFmt v).status = s.status := rfl
@[simp] theorem State.setFmt_srcAddr (v : BitVec 19) : (s.setFmt v).srcAddr = s.srcAddr := rfl
@[simp] theorem State.setFmt_srcLen (v : BitVec 19) : (s.setFmt v).srcLen = s.srcLen := rfl
@[simp] theorem State.setFmt_dstAddr (v : BitVec 19) : (s.setFmt v).dstAddr = s.dstAddr := rfl
@[simp] theorem State.setFmt_dstLen (v : BitVec 19) : (s.setFmt v).dstLen = s.dstLen := rfl
@[simp] theorem State.setFmt_width (v : BitVec 19) : (s.setFmt v).width = s.width := rfl
@[simp] theorem State.setFmt_height (v : BitVec 19) : (s.setFmt v).height = s.height := rfl
@[simp] theorem State.setFmt_opa (v : BitVec 19) : (s.setFmt v).opa = s.opa := rfl
@[simp] theorem State.setFmt_opb (v : BitVec 19) : (s.setFmt v).opb = s.opb := rfl
@[simp] theorem State.setFmt_result (v : BitVec 19) : (s.setFmt v).result = s.result := rfl
@[simp] theorem State.setFmt_fmt (v : BitVec 19) : (s.setFmt v).fmt = v := rfl
@[simp] theorem State.setFmt_canvasDim (v : BitVec 19) : (s.setFmt v).canvasDim = s.canvasDim := rfl
@[simp] theorem State.setFmt_levelBytes (v : BitVec 19) : (s.setFmt v).levelBytes = s.levelBytes := rfl
@[simp] theorem State.setFmt_hdrDsize (v : BitVec 19) : (s.setFmt v).hdrDsize = s.hdrDsize := rfl
@[simp] theorem State.setFmt_hdrUnk1 (v : BitVec 19) : (s.setFmt v).hdrUnk1 = s.hdrUnk1 := rfl
@[simp] theorem State.setFmt_hdrDim (v : BitVec 19) : (s.setFmt v).hdrDim = s.hdrDim := rfl
@[simp] theorem State.setFmt_hdrInfo (v : BitVec 19) : (s.setFmt v).hdrInfo = s.hdrInfo := rfl
@[simp] theorem State.setFmt_mem (v : BitVec 19) : (s.setFmt v).mem = s.mem := rfl
@[simp] theorem State.setFmt_hostAccesses (v : BitVec 19) : (s.setFmt v).hostAccesses = s.hostAccesses := rfl
@[simp] theorem State.setFmt_reads (v : BitVec 19) : (s.setFmt v).reads = s.reads := rfl

/-! ## setCanvas -/

@[simp] theorem State.setCanvas_cfg (dim bytes : Word) : (s.setCanvas dim bytes).cfg = s.cfg := rfl
@[simp] theorem State.setCanvas_status (dim bytes : Word) : (s.setCanvas dim bytes).status = s.status := rfl
@[simp] theorem State.setCanvas_srcAddr (dim bytes : Word) : (s.setCanvas dim bytes).srcAddr = s.srcAddr := rfl
@[simp] theorem State.setCanvas_srcLen (dim bytes : Word) : (s.setCanvas dim bytes).srcLen = s.srcLen := rfl
@[simp] theorem State.setCanvas_dstAddr (dim bytes : Word) : (s.setCanvas dim bytes).dstAddr = s.dstAddr := rfl
@[simp] theorem State.setCanvas_dstLen (dim bytes : Word) : (s.setCanvas dim bytes).dstLen = s.dstLen := rfl
@[simp] theorem State.setCanvas_width (dim bytes : Word) : (s.setCanvas dim bytes).width = s.width := rfl
@[simp] theorem State.setCanvas_height (dim bytes : Word) : (s.setCanvas dim bytes).height = s.height := rfl
@[simp] theorem State.setCanvas_opa (dim bytes : Word) : (s.setCanvas dim bytes).opa = s.opa := rfl
@[simp] theorem State.setCanvas_opb (dim bytes : Word) : (s.setCanvas dim bytes).opb = s.opb := rfl
@[simp] theorem State.setCanvas_result (dim bytes : Word) : (s.setCanvas dim bytes).result = s.result := rfl
@[simp] theorem State.setCanvas_fmt (dim bytes : Word) : (s.setCanvas dim bytes).fmt = s.fmt := rfl
@[simp] theorem State.setCanvas_canvasDim (dim bytes : Word) : (s.setCanvas dim bytes).canvasDim = dim := rfl
@[simp] theorem State.setCanvas_levelBytes (dim bytes : Word) : (s.setCanvas dim bytes).levelBytes = bytes := rfl
@[simp] theorem State.setCanvas_hdrDsize (dim bytes : Word) : (s.setCanvas dim bytes).hdrDsize = s.hdrDsize := rfl
@[simp] theorem State.setCanvas_hdrUnk1 (dim bytes : Word) : (s.setCanvas dim bytes).hdrUnk1 = s.hdrUnk1 := rfl
@[simp] theorem State.setCanvas_hdrDim (dim bytes : Word) : (s.setCanvas dim bytes).hdrDim = s.hdrDim := rfl
@[simp] theorem State.setCanvas_hdrInfo (dim bytes : Word) : (s.setCanvas dim bytes).hdrInfo = s.hdrInfo := rfl
@[simp] theorem State.setCanvas_mem (dim bytes : Word) : (s.setCanvas dim bytes).mem = s.mem := rfl
@[simp] theorem State.setCanvas_hostAccesses (dim bytes : Word) : (s.setCanvas dim bytes).hostAccesses = s.hostAccesses := rfl
@[simp] theorem State.setCanvas_reads (dim bytes : Word) : (s.setCanvas dim bytes).reads = s.reads := rfl

/-! ## setHeader -/

@[simp] theorem State.setHeader_cfg (dsize unk dim : Word) (info : BitVec 17) : (s.setHeader dsize unk dim info).cfg = s.cfg := rfl
@[simp] theorem State.setHeader_status (dsize unk dim : Word) (info : BitVec 17) : (s.setHeader dsize unk dim info).status = s.status := rfl
@[simp] theorem State.setHeader_srcAddr (dsize unk dim : Word) (info : BitVec 17) : (s.setHeader dsize unk dim info).srcAddr = s.srcAddr := rfl
@[simp] theorem State.setHeader_srcLen (dsize unk dim : Word) (info : BitVec 17) : (s.setHeader dsize unk dim info).srcLen = s.srcLen := rfl
@[simp] theorem State.setHeader_dstAddr (dsize unk dim : Word) (info : BitVec 17) : (s.setHeader dsize unk dim info).dstAddr = s.dstAddr := rfl
@[simp] theorem State.setHeader_dstLen (dsize unk dim : Word) (info : BitVec 17) : (s.setHeader dsize unk dim info).dstLen = s.dstLen := rfl
@[simp] theorem State.setHeader_width (dsize unk dim : Word) (info : BitVec 17) : (s.setHeader dsize unk dim info).width = s.width := rfl
@[simp] theorem State.setHeader_height (dsize unk dim : Word) (info : BitVec 17) : (s.setHeader dsize unk dim info).height = s.height := rfl
@[simp] theorem State.setHeader_opa (dsize unk dim : Word) (info : BitVec 17) : (s.setHeader dsize unk dim info).opa = s.opa := rfl
@[simp] theorem State.setHeader_opb (dsize unk dim : Word) (info : BitVec 17) : (s.setHeader dsize unk dim info).opb = s.opb := rfl
@[simp] theorem State.setHeader_result (dsize unk dim : Word) (info : BitVec 17) : (s.setHeader dsize unk dim info).result = s.result := rfl
@[simp] theorem State.setHeader_fmt (dsize unk dim : Word) (info : BitVec 17) : (s.setHeader dsize unk dim info).fmt = s.fmt := rfl
@[simp] theorem State.setHeader_canvasDim (dsize unk dim : Word) (info : BitVec 17) : (s.setHeader dsize unk dim info).canvasDim = s.canvasDim := rfl
@[simp] theorem State.setHeader_levelBytes (dsize unk dim : Word) (info : BitVec 17) : (s.setHeader dsize unk dim info).levelBytes = s.levelBytes := rfl
@[simp] theorem State.setHeader_hdrDsize (dsize unk dim : Word) (info : BitVec 17) : (s.setHeader dsize unk dim info).hdrDsize = dsize := rfl
@[simp] theorem State.setHeader_hdrUnk1 (dsize unk dim : Word) (info : BitVec 17) : (s.setHeader dsize unk dim info).hdrUnk1 = unk := rfl
@[simp] theorem State.setHeader_hdrDim (dsize unk dim : Word) (info : BitVec 17) : (s.setHeader dsize unk dim info).hdrDim = dim := rfl
@[simp] theorem State.setHeader_hdrInfo (dsize unk dim : Word) (info : BitVec 17) : (s.setHeader dsize unk dim info).hdrInfo = info := rfl
@[simp] theorem State.setHeader_mem (dsize unk dim : Word) (info : BitVec 17) : (s.setHeader dsize unk dim info).mem = s.mem := rfl
@[simp] theorem State.setHeader_hostAccesses (dsize unk dim : Word) (info : BitVec 17) : (s.setHeader dsize unk dim info).hostAccesses = s.hostAccesses := rfl
@[simp] theorem State.setHeader_reads (dsize unk dim : Word) (info : BitVec 17) : (s.setHeader dsize unk dim info).reads = s.reads := rfl

/-! ## setMem -/

@[simp] theorem State.setMem_cfg (m : Memory) : (s.setMem m).cfg = s.cfg := rfl
@[simp] theorem State.setMem_status (m : Memory) : (s.setMem m).status = s.status := rfl
@[simp] theorem State.setMem_srcAddr (m : Memory) : (s.setMem m).srcAddr = s.srcAddr := rfl
@[simp] theorem State.setMem_srcLen (m : Memory) : (s.setMem m).srcLen = s.srcLen := rfl
@[simp] theorem State.setMem_dstAddr (m : Memory) : (s.setMem m).dstAddr = s.dstAddr := rfl
@[simp] theorem State.setMem_dstLen (m : Memory) : (s.setMem m).dstLen = s.dstLen := rfl
@[simp] theorem State.setMem_width (m : Memory) : (s.setMem m).width = s.width := rfl
@[simp] theorem State.setMem_height (m : Memory) : (s.setMem m).height = s.height := rfl
@[simp] theorem State.setMem_opa (m : Memory) : (s.setMem m).opa = s.opa := rfl
@[simp] theorem State.setMem_opb (m : Memory) : (s.setMem m).opb = s.opb := rfl
@[simp] theorem State.setMem_result (m : Memory) : (s.setMem m).result = s.result := rfl
@[simp] theorem State.setMem_fmt (m : Memory) : (s.setMem m).fmt = s.fmt := rfl
@[simp] theorem State.setMem_canvasDim (m : Memory) : (s.setMem m).canvasDim = s.canvasDim := rfl
@[simp] theorem State.setMem_levelBytes (m : Memory) : (s.setMem m).levelBytes = s.levelBytes := rfl
@[simp] theorem State.setMem_hdrDsize (m : Memory) : (s.setMem m).hdrDsize = s.hdrDsize := rfl
@[simp] theorem State.setMem_hdrUnk1 (m : Memory) : (s.setMem m).hdrUnk1 = s.hdrUnk1 := rfl
@[simp] theorem State.setMem_hdrDim (m : Memory) : (s.setMem m).hdrDim = s.hdrDim := rfl
@[simp] theorem State.setMem_hdrInfo (m : Memory) : (s.setMem m).hdrInfo = s.hdrInfo := rfl
@[simp] theorem State.setMem_mem (m : Memory) : (s.setMem m).mem = m := rfl
@[simp] theorem State.setMem_hostAccesses (m : Memory) : (s.setMem m).hostAccesses = s.hostAccesses := rfl
@[simp] theorem State.setMem_reads (m : Memory) : (s.setMem m).reads = s.reads := rfl

/-! ## pushRead -/

@[simp] theorem State.pushRead_cfg (v : Word) : (s.pushRead v).cfg = s.cfg := rfl
@[simp] theorem State.pushRead_status (v : Word) : (s.pushRead v).status = s.status := rfl
@[simp] theorem State.pushRead_srcAddr (v : Word) : (s.pushRead v).srcAddr = s.srcAddr := rfl
@[simp] theorem State.pushRead_srcLen (v : Word) : (s.pushRead v).srcLen = s.srcLen := rfl
@[simp] theorem State.pushRead_dstAddr (v : Word) : (s.pushRead v).dstAddr = s.dstAddr := rfl
@[simp] theorem State.pushRead_dstLen (v : Word) : (s.pushRead v).dstLen = s.dstLen := rfl
@[simp] theorem State.pushRead_width (v : Word) : (s.pushRead v).width = s.width := rfl
@[simp] theorem State.pushRead_height (v : Word) : (s.pushRead v).height = s.height := rfl
@[simp] theorem State.pushRead_opa (v : Word) : (s.pushRead v).opa = s.opa := rfl
@[simp] theorem State.pushRead_opb (v : Word) : (s.pushRead v).opb = s.opb := rfl
@[simp] theorem State.pushRead_result (v : Word) : (s.pushRead v).result = s.result := rfl
@[simp] theorem State.pushRead_fmt (v : Word) : (s.pushRead v).fmt = s.fmt := rfl
@[simp] theorem State.pushRead_canvasDim (v : Word) : (s.pushRead v).canvasDim = s.canvasDim := rfl
@[simp] theorem State.pushRead_levelBytes (v : Word) : (s.pushRead v).levelBytes = s.levelBytes := rfl
@[simp] theorem State.pushRead_hdrDsize (v : Word) : (s.pushRead v).hdrDsize = s.hdrDsize := rfl
@[simp] theorem State.pushRead_hdrUnk1 (v : Word) : (s.pushRead v).hdrUnk1 = s.hdrUnk1 := rfl
@[simp] theorem State.pushRead_hdrDim (v : Word) : (s.pushRead v).hdrDim = s.hdrDim := rfl
@[simp] theorem State.pushRead_hdrInfo (v : Word) : (s.pushRead v).hdrInfo = s.hdrInfo := rfl
@[simp] theorem State.pushRead_mem (v : Word) : (s.pushRead v).mem = s.mem := rfl
@[simp] theorem State.pushRead_hostAccesses (v : Word) : (s.pushRead v).hostAccesses = s.hostAccesses := rfl
@[simp] theorem State.pushRead_reads (v : Word) : (s.pushRead v).reads = s.reads ++ [v] := rfl

/-! ## setAccesses -/

@[simp] theorem State.setAccesses_cfg (l : List HostAccess) : (s.setAccesses l).cfg = s.cfg := rfl
@[simp] theorem State.setAccesses_status (l : List HostAccess) : (s.setAccesses l).status = s.status := rfl
@[simp] theorem State.setAccesses_srcAddr (l : List HostAccess) : (s.setAccesses l).srcAddr = s.srcAddr := rfl
@[simp] theorem State.setAccesses_srcLen (l : List HostAccess) : (s.setAccesses l).srcLen = s.srcLen := rfl
@[simp] theorem State.setAccesses_dstAddr (l : List HostAccess) : (s.setAccesses l).dstAddr = s.dstAddr := rfl
@[simp] theorem State.setAccesses_dstLen (l : List HostAccess) : (s.setAccesses l).dstLen = s.dstLen := rfl
@[simp] theorem State.setAccesses_width (l : List HostAccess) : (s.setAccesses l).width = s.width := rfl
@[simp] theorem State.setAccesses_height (l : List HostAccess) : (s.setAccesses l).height = s.height := rfl
@[simp] theorem State.setAccesses_opa (l : List HostAccess) : (s.setAccesses l).opa = s.opa := rfl
@[simp] theorem State.setAccesses_opb (l : List HostAccess) : (s.setAccesses l).opb = s.opb := rfl
@[simp] theorem State.setAccesses_result (l : List HostAccess) : (s.setAccesses l).result = s.result := rfl
@[simp] theorem State.setAccesses_fmt (l : List HostAccess) : (s.setAccesses l).fmt = s.fmt := rfl
@[simp] theorem State.setAccesses_canvasDim (l : List HostAccess) : (s.setAccesses l).canvasDim = s.canvasDim := rfl
@[simp] theorem State.setAccesses_levelBytes (l : List HostAccess) : (s.setAccesses l).levelBytes = s.levelBytes := rfl
@[simp] theorem State.setAccesses_hdrDsize (l : List HostAccess) : (s.setAccesses l).hdrDsize = s.hdrDsize := rfl
@[simp] theorem State.setAccesses_hdrUnk1 (l : List HostAccess) : (s.setAccesses l).hdrUnk1 = s.hdrUnk1 := rfl
@[simp] theorem State.setAccesses_hdrDim (l : List HostAccess) : (s.setAccesses l).hdrDim = s.hdrDim := rfl
@[simp] theorem State.setAccesses_hdrInfo (l : List HostAccess) : (s.setAccesses l).hdrInfo = s.hdrInfo := rfl
@[simp] theorem State.setAccesses_mem (l : List HostAccess) : (s.setAccesses l).mem = s.mem := rfl
@[simp] theorem State.setAccesses_hostAccesses (l : List HostAccess) : (s.setAccesses l).hostAccesses = l := rfl
@[simp] theorem State.setAccesses_reads (l : List HostAccess) : (s.setAccesses l).reads = s.reads := rfl

end Sys2Proof.Machine
end

