-- ==== Sys2Proof/Laws/Ops.lean ====
section
/-! SUPPORT. What the shared operations can answer: the checks, the admit line, the two completions and the STATUS word. -/
namespace Sys2Proof.Machine

/-! ## The STATUS word -/

theorem statusWord_getLsbD (e : BitVec 4) (op : Byte) (i : Nat) :
    (statusWord e op).getLsbD i =
      if i < 4 then e.getLsbD i else if i < 8 then false else if i < 16 then op.getLsbD (i - 8) else decide (i = 16) := by
  simp only [statusWord, BitVec.getLsbD_append]
  by_cases h₁ : i < 4
  · simp [h₁, show i < 8 by omega, show i < 16 by omega]
  · by_cases h₂ : i < 8
    · simp [h₁, h₂, show i < 16 by omega]
    · by_cases h₃ : i < 16
      · simp [h₁, h₂, h₃]
      · simp [h₁, h₂, h₃]
        omega

@[simp] theorem statusWord_err (e : BitVec 4) (op : Byte) : (statusWord e op).extractLsb' 0 4 = e := by
  apply BitVec.eq_of_getLsbD_eq
  intro i hi
  rw [BitVec.getLsbD_extractLsb', statusWord_getLsbD]
  simp [hi]

@[simp] theorem statusWord_reserved (e : BitVec 4) (op : Byte) : (statusWord e op).extractLsb' 4 4 = 0 := by
  apply BitVec.eq_of_getLsbD_eq
  intro i hi
  rw [BitVec.getLsbD_extractLsb', statusWord_getLsbD]
  simp [show 4 + i < 8 by omega]

@[simp] theorem statusWord_lastOp (e : BitVec 4) (op : Byte) : (statusWord e op).extractLsb' 8 8 = op := by
  apply BitVec.eq_of_getLsbD_eq
  intro i hi
  rw [BitVec.getLsbD_extractLsb', statusWord_getLsbD]
  simp [hi, show 8 + i < 16 by omega, show ¬8 + i < 4 by omega, show ¬8 + i < 8 by omega]

@[simp] theorem statusWord_done (e : BitVec 4) (op : Byte) : (statusWord e op).getLsbD 16 = true := by
  rw [statusWord_getLsbD]
  simp

/-- No error kind has code 0, and no code is above 6 (60_exceptions.md R201). -/
theorem CmdError.code_range (e : CmdError) : e.code ≠ 0 ∧ e.code.toNat ≤ 6 := by cases e <;> decide

theorem CmdError.code_injective : ∀ e e' : CmdError, e.code = e'.code → e = e' := by
  intro e e'
  cases e <;> cases e' <;> decide

/-! ## The completions -/

/-- A successful completion writes STATUS and nothing else. -/
theorem finish_eq (op : Byte) (s : State) : finish op s = { s with status := statusWord 0 op } := rfl

/-- An error completion writes STATUS and nothing else (60_exceptions.md R200). -/
theorem raiseError_eq (op : Byte) (e : CmdError) (s : State) :
    raiseError op e s = { s with status := statusWord e.code op } := rfl

/-! ## The checks -/

theorem firstError_eq_none_iff (l : List (Option CmdError)) : firstError l = none ↔ ∀ c ∈ l, c = none := by
  induction l with
  | nil => simp [firstError]
  | cons c l ih => cases c <;> simp [firstError, ih]

/-- The reported error is that of some check before which every check passes. -/
theorem firstError_eq_some_iff (l : List (Option CmdError)) (e : CmdError) :
    firstError l = some e ↔ ∃ l₁ l₂, l = l₁ ++ some e :: l₂ ∧ ∀ c ∈ l₁, c = none := by
  induction l with
  | nil => simp [firstError]
  | cons c l ih =>
    cases c with
    | none =>
      simp only [firstError, ih]
      constructor
      · rintro ⟨l₁, l₂, rfl, h⟩
        exact ⟨none :: l₁, l₂, rfl, by simpa using h⟩
      · rintro ⟨l₁, l₂, hl, h⟩
        cases l₁ with
        | nil => simp at hl
        | cons d l₁ =>
          simp only [List.cons_append, List.cons.injEq] at hl
          exact ⟨l₁, l₂, hl.2, fun c hc => h c (by simp [hc])⟩
    | some d =>
      simp only [firstError, Option.some.injEq]
      constructor
      · rintro rfl
        exact ⟨[], l, rfl, by simp⟩
      · rintro ⟨l₁, l₂, hl, h⟩
        cases l₁ with
        | nil => simpa using (List.cons.inj hl).1
        | cons d' l₁ =>
          have h₁ := h d' (by simp)
          have h₂ := (List.cons.inj hl).1
          rw [h₁] at h₂
          cases h₂

theorem srcError_eq_none_iff (s : State) (n : Nat) :
    srcError s n = none ↔ n ≤ s.srcLen.toNat ∧ s.srcAddr.toNat + n ≤ 2 ^ 32 := by
  unfold srcError
  split
  · simp; omega
  · split <;> simp <;> omega

theorem dstError_eq_none_iff (s : State) (n : Nat) :
    dstError s n = none ↔ n ≤ s.dstLen.toNat ∧ s.dstAddr.toNat + n ≤ 2 ^ 32 := by
  unfold dstError
  split
  · simp; omega
  · split <;> simp <;> omega

theorem overlapError_eq_none_iff (s : State) (ns nd : Nat) :
    overlapError s ns nd = none ↔
      ns = 0 ∨ nd = 0 ∨ s.dstAddr.toNat + nd ≤ s.srcAddr.toNat ∨ s.srcAddr.toNat + ns ≤ s.dstAddr.toNat := by
  unfold overlapError
  split <;> simp <;> omega

theorem dimError_eq_none_iff (w h : Nat) : dimError w h = none ↔ w < 0x8000 ∧ h < 0x8000 := by
  unfold dimError
  split <;> simp <;> omega

/-- When the region checks pass, both regions are available, inside the address space and apart. -/
theorem regionError_eq_none_iff (s : State) (ns nd : Nat) :
    regionError s ns nd = none ↔ srcError s ns = none ∧ dstError s nd = none ∧ overlapError s ns nd = none := by
  simp [regionError, firstError_eq_none_iff]

/-- The error kinds the region checks report (60_exceptions.md R201). -/
theorem regionError_kind (s : State) (ns nd : Nat) (e : CmdError) (h : regionError s ns nd = some e) :
    e = .truncatedData ∨ e = .outputTooSmall ∨ e = .badRegion := by
  simp only [regionError, srcError, dstError, overlapError] at h
  repeat' split at h
  all_goals simp_all [firstError]

theorem dimError_kind (w h : Nat) (e : CmdError) (he : dimError w h = some e) : e = .invalidDimensions := by
  unfold dimError at he
  split at he <;> simp_all

/-! ## Admission -/

theorem admitsRegion_iff (c : Config) (a n : Nat) :
    admitsRegion c a n = true ↔ ∀ k, k < n → admitsByte c (a + k) = true := by
  simp [admitsRegion]

theorem admitted_iff (s : State) (ns nd : Nat) :
    admitted s ns nd = true ↔
      (∀ k, k < ns → admitsByte s.cfg (s.srcAddr.toNat + k) = true) ∧
        ∀ k, k < nd → admitsByte s.cfg (s.dstAddr.toNat + k) = true := by
  simp [admitted, admitsRegion_iff]

/-- `admit(src 0, dst 0)` never sticks. -/
@[simp] theorem admitted_zero (s : State) : admitted s 0 0 = true := by simp [admitted_iff]

/-! ## Small values -/

theorem le_lt (bs : List Byte) : le bs < 256 ^ bs.length := by
  induction bs with
  | nil => simp [le]
  | cons b bs ih =>
    have hb := b.isLt
    simp only [le, List.length_cons, pow_succ]
    omega

theorem bitField_lt (v lo n : Nat) : bitField v lo n < 2 ^ n := Nat.mod_lt _ (by positivity)

end Sys2Proof.Machine
end

