-- ==== Sys2Proof/Laws/Commands.lean ====
section
/-! SUPPORT. For each command, once, everything it can answer. -/
namespace Sys2Proof.Machine

/-- PARSE_HDR: an error of the source check, stuck, or the parse of the 128 bytes. -/
theorem execParseHdr_cases (s : State) :
    (∃ e, srcError s 128 = some e ∧ execParseHdr s = .next (raiseError 0x01 e s)) ∨
    (srcError s 128 = none ∧ admitted s 128 0 = false ∧ execParseHdr s = .fault .stuckUnadmitted) ∨
    (srcError s 128 = none ∧ admitted s 128 0 = true ∧
      execParseHdr s = .next (finishParse 0x01 (parseHeader (s.source 128)) s)) := by
  unfold execParseHdr
  cases h : srcError s 128 with
  | some e => exact .inl ⟨e, rfl, rfl⟩
  | none =>
    cases ha : admitted s 128 0 with
    | true => exact .inr (.inr ⟨rfl, rfl, by simp [Instr.op]⟩)
    | false => exact .inr (.inl ⟨rfl, rfl, by simp⟩)

/-- The parse of a header: a dimension error, an unsupported pair, or the commit. -/
theorem finishParse_cases (op : Byte) (h : Header) (s : State) :
    (¬(h.width.toNat < 0x8000 ∧ h.height.toNat < 0x8000) ∧ finishParse op h s = raiseError op .invalidDimensions s) ∨
    (h.width.toNat < 0x8000 ∧ h.height.toNat < 0x8000 ∧ resolve s.cfg h.enc (headerCompressed h) = none ∧
      finishParse op h s = raiseError op .unsupportedEncoding s) ∨
    (∃ f, h.width.toNat < 0x8000 ∧ h.height.toNat < 0x8000 ∧ resolve s.cfg h.enc (headerCompressed h) = some f ∧
      finishParse op h s = finish op (commitHeader h f s)) := by
  unfold finishParse
  cases hd : dimError h.width.toNat h.height.toNat with
  | some e =>
    refine .inl ⟨fun hlt => ?_, by rw [dimError_kind _ _ _ hd]⟩
    rw [(dimError_eq_none_iff _ _).mpr hlt] at hd
    cases hd
  | none =>
    obtain ⟨hw, hh⟩ := (dimError_eq_none_iff _ _).mp hd
    cases hr : resolve s.cfg h.enc (headerCompressed h) with
    | none => exact .inr (.inl ⟨hw, hh, rfl, rfl⟩)
    | some f => exact .inr (.inr ⟨f, hw, hh, rfl, rfl⟩)

/-- RESOLVE_FMT: an unsupported pair, or FMT. -/
theorem execResolveFmt_cases (s : State) :
    (resolve s.cfg s.opaEncoding s.opaCompressed = none ∧
      execResolveFmt s = .next (raiseError 0x02 .unsupportedEncoding s)) ∨
    (∃ f, resolve s.cfg s.opaEncoding s.opaCompressed = some f ∧
      execResolveFmt s = .next (finish 0x02 (s.setFmt (fmtValue f)))) := by
  unfold execResolveFmt
  rw [admitted_zero, if_pos rfl]
  cases hr : resolve s.cfg s.opaEncoding s.opaCompressed with
  | none => exact .inl ⟨rfl, rfl⟩
  | some f => exact .inr ⟨f, rfl, rfl⟩

/-- CANVAS: a dimension error, or the two result registers. -/
theorem canvasCommand_cases (op : Byte) (f : Format) (s : State) :
    (¬(s.width.toNat < 0x8000 ∧ s.height.toNat < 0x8000) ∧
      canvasCommand op f s = .next (raiseError op .invalidDimensions s)) ∨
    (s.width.toNat < 0x8000 ∧ s.height.toNat < 0x8000 ∧
      canvasCommand op f s = .next (finish op (s.setCanvas
        (BitVec.ofNat 16 (canvasSize s.height.toNat (formatQuant f)) ++
          BitVec.ofNat 16 (canvasSize s.width.toNat (formatQuant f)))
        (BitVec.ofNat 32 (levelSize f s.width.toNat s.height.toNat))))) := by
  unfold canvasCommand
  cases hd : dimError s.width.toNat s.height.toNat with
  | some e =>
    refine .inl ⟨fun hlt => ?_, by rw [dimError_kind _ _ _ hd]⟩
    rw [(dimError_eq_none_iff _ _).mpr hlt] at hd
    cases hd
  | none =>
    obtain ⟨hw, hh⟩ := (dimError_eq_none_iff _ _).mp hd
    exact .inr ⟨hw, hh, by simp⟩

/-- LOG2 always completes. -/
theorem execLog2_eq (s : State) :
    execLog2 s = .next (finish 0x04 (s.setResult (BitVec.ofNat 32 (log2 s.opa)))) := by
  simp [execLog2, Instr.op]

/-- SWZ_OFFSET: a dimension error, or RESULT. -/
theorem execSwzOffset_cases (s : State) :
    (¬(s.width.toNat < 0x8000 ∧ s.height.toNat < 0x8000) ∧
      execSwzOffset s = .next (raiseError 0x05 .invalidDimensions s)) ∨
    (s.width.toNat < 0x8000 ∧ s.height.toNat < 0x8000 ∧
      execSwzOffset s = .next (finish 0x05 (s.setResult (BitVec.ofNat 32
        (interleave s.opa.toNat s.opb.toNat (budget s.width.toNat) (budget s.height.toNat)))))) := by
  unfold execSwzOffset
  cases hd : dimError s.width.toNat s.height.toNat with
  | some e =>
    refine .inl ⟨fun hlt => ?_, by rw [dimError_kind _ _ _ hd]; rfl⟩
    rw [(dimError_eq_none_iff _ _).mpr hlt] at hd
    cases hd
  | none =>
    obtain ⟨hw, hh⟩ := (dimError_eq_none_iff _ _).mp hd
    exact .inr ⟨hw, hh, by simp [Instr.op]⟩

/-- DESWIZZLE: the first error, the refusal, stuck, or the reordered bytes in memory. -/
theorem execDeswizzle_cases (s : State) :
    (∃ e, deswizzleError s = some e ∧ execDeswizzle s = .next (raiseError 0x06 e s)) ∨
    (deswizzleError s = none ∧ deswizzleRefused s = true ∧ execDeswizzle s = .refused .nonpow2Height) ∨
    (deswizzleError s = none ∧ deswizzleRefused s = false ∧ admitted s (deswizzleNeed s) (deswizzleNeed s) = false ∧
      execDeswizzle s = .fault .stuckUnadmitted) ∨
    (deswizzleError s = none ∧ deswizzleRefused s = false ∧ admitted s (deswizzleNeed s) (deswizzleNeed s) = true ∧
      execDeswizzle s = .next (finish 0x06 (s.setMem (s.mem.writeBytes s.dstAddr.toNat (deswizzleOut s))))) := by
  unfold execDeswizzle
  cases deswizzleError s with
  | some e => exact .inl ⟨e, rfl, rfl⟩
  | none =>
    cases deswizzleRefused s with
    | true => exact .inr (.inl ⟨rfl, rfl, by simp⟩)
    | false =>
      cases admitted s (deswizzleNeed s) (deswizzleNeed s) with
      | true => exact .inr (.inr (.inr ⟨rfl, rfl, rfl, by simp [Instr.op]⟩))
      | false => exact .inr (.inr (.inl ⟨rfl, rfl, rfl, by simp⟩))

/-- A single-block command: the first error, stuck, or the 64 bytes in memory. -/
theorem blockCommand_cases (op : Byte) (k : BlockKind) (s : State) :
    (∃ e, regionError s (blockBytes k) 64 = some e ∧ blockCommand op k s = .next (raiseError op e s)) ∨
    (regionError s (blockBytes k) 64 = none ∧ admitted s (blockBytes k) 64 = false ∧
      blockCommand op k s = .fault .stuckUnadmitted) ∨
    (regionError s (blockBytes k) 64 = none ∧ admitted s (blockBytes k) 64 = true ∧
      blockCommand op k s = .next (finish op (s.setMem (s.mem.writeBytes s.dstAddr.toNat (blockOut k s))))) := by
  unfold blockCommand
  cases regionError s (blockBytes k) 64 with
  | some e => exact .inl ⟨e, rfl, rfl⟩
  | none =>
    cases admitted s (blockBytes k) 64 with
    | true => exact .inr (.inr ⟨rfl, rfl, by simp⟩)
    | false => exact .inr (.inl ⟨rfl, rfl, by simp⟩)

/-- A surface command: the first error, stuck, or the pixels in memory. -/
theorem surfaceCommand_cases (op : Byte) (k : BlockKind) (s : State) :
    (∃ e, surfaceError k s = some e ∧ surfaceCommand op k s = .next (raiseError op e s)) ∨
    (surfaceError k s = none ∧ admitted s (surfaceSrcNeed k s) (surfaceDstNeed s) = false ∧
      surfaceCommand op k s = .fault .stuckUnadmitted) ∨
    (surfaceError k s = none ∧ admitted s (surfaceSrcNeed k s) (surfaceDstNeed s) = true ∧
      surfaceCommand op k s = .next (finish op (s.setMem (surfaceMem k s)))) := by
  unfold surfaceCommand
  cases surfaceError k s with
  | some e => exact .inl ⟨e, rfl, rfl⟩
  | none =>
    cases admitted s (surfaceSrcNeed k s) (surfaceDstNeed s) with
    | true => exact .inr (.inr ⟨rfl, rfl, by simp⟩)
    | false => exact .inr (.inl ⟨rfl, rfl, by simp⟩)

/-- Every pixel has four bytes (42_block_decompress.md R158). -/
@[simp] theorem pixelBytes_length (o : OutOrder) (p : Pixel) : (pixelBytes o p).length = 4 := by cases o <;> rfl

@[simp] theorem decodeBlock_length (cfg : Config) (k : BlockKind) (b : List Byte) : (decodeBlock cfg k b).length = 16 := by
  cases k <;> simp [decodeBlock, dec1, dec3, dec5]

/-- A single-block command writes 64 bytes (42_block_decompress.md R163). -/
@[simp] theorem blockOut_length (k : BlockKind) (s : State) : (blockOut k s).length = 64 := by
  simp [blockOut, List.length_flatMap]

@[simp] theorem deswizzleBytes_length (cw ch : Nat) (src : List Byte) :
    (deswizzleBytes cw ch src).length = cw * ch * 4 := by
  simp only [deswizzleBytes, List.length_flatMap, List.length_map, List.length_range, List.map_const', List.sum_replicate,
    smul_eq_mul]
  ring

/-- DESWIZZLE writes as many bytes as it needs (41_swizzle.md R135). -/
@[simp] theorem deswizzleOut_length (s : State) : (deswizzleOut s).length = deswizzleNeed s := by
  unfold deswizzleOut
  split
  · simp [deswizzleNeed]
  · simp [State.source]

/-- Putting one pixel changes only the four bytes of its place. -/
theorem putPixel_read (o : OutOrder) (dst w h : Nat) (m : Memory) (q : PlacedPixel) (a : Nat) :
    (putPixel o dst w h m q).read a =
      if q.x < w ∧ q.y < h ∧ dst + ((h - 1 - q.y) * w + q.x) * 4 ≤ a ∧ a < dst + ((h - 1 - q.y) * w + q.x) * 4 + 4 then
        (pixelBytes o q.p).getD (a - (dst + ((h - 1 - q.y) * w + q.x) * 4)) unlistedByte
      else m.read a := by
  unfold putPixel
  by_cases hq : q.x < w ∧ q.y < h
  · rw [if_pos hq, Memory.read_writeBytes, pixelBytes_length]
    simp [hq.1, hq.2]
  · rw [if_neg hq, if_neg (fun h => hq ⟨h.1, h.2.1⟩)]

/-- What one access of the host can answer. -/
theorem performAccess_regWrite (offset : BitVec 8) (v : Word) (s : State) (h : offset.toNat % 4 = 0) :
    performAccess (.regWrite offset 32 v) s = hostRegWrite offset v s := by
  simp [performAccess, accessAllowed, h]

theorem performAccess_regRead (offset : BitVec 8) (s : State) (h : offset.toNat % 4 = 0) :
    performAccess (.regRead offset 32) s = .next (s.pushRead (readOffset s offset)) := by
  simp [performAccess, accessAllowed, h]

/-- The map from registers to offsets and back (10_state.md R23). -/
theorem regAt_regOffset (r : Reg) : regAt (regOffset r) = some r := by cases r <;> rfl

theorem regOffset_aligned (r : Reg) : (regOffset r).toNat % 4 = 0 := by cases r <;> rfl

/-- A step with no access left changes nothing. -/
theorem step_idle (s : State) (h : s.hostAccesses = []) : step s = .next s := by simp [step, h]

/-- A step performs the next access. -/
theorem step_cons (s : State) (a : HostAccess) (rest : List HostAccess) (h : s.hostAccesses = a :: rest) :
    step s = performAccess a (s.setAccesses rest) := by simp [step, h]

end Sys2Proof.Machine
end

