-- ==== Sys2Proof/Laws/PerInstr.lean ====
section
/-! SUPPORT. Families of lemmas with one member per constructor of Instr. -/
namespace Sys2Proof.Laws

/-- The command word of an instruction has no reserved bit set, and FMT is non-zero exactly on opcode 0x03 (30_encoding.md R74). -/
def EncodeLegal.Statement (i : Instr) : Prop :=
  cmdRsv (encode i) = 0 ∧ (cmdFmt (encode i) ≠ 0 ↔ cmdOp (encode i) = 0x03) ∧ cmdOp (encode i) = i.op ∧ i.wf = true

theorem EncodeLegal.parseHdr : EncodeLegal.Statement .parseHdr := by unfold EncodeLegal.Statement; decide
theorem EncodeLegal.resolveFmt : EncodeLegal.Statement .resolveFmt := by unfold EncodeLegal.Statement; decide
theorem EncodeLegal.canvasGray : EncodeLegal.Statement .canvasGray := by unfold EncodeLegal.Statement; decide
theorem EncodeLegal.canvasRgb : EncodeLegal.Statement .canvasRgb := by unfold EncodeLegal.Statement; decide
theorem EncodeLegal.canvasRgba : EncodeLegal.Statement .canvasRgba := by unfold EncodeLegal.Statement; decide
theorem EncodeLegal.canvasBgra : EncodeLegal.Statement .canvasBgra := by unfold EncodeLegal.Statement; decide
theorem EncodeLegal.canvasDxt1 : EncodeLegal.Statement .canvasDxt1 := by unfold EncodeLegal.Statement; decide
theorem EncodeLegal.canvasDxt3 : EncodeLegal.Statement .canvasDxt3 := by unfold EncodeLegal.Statement; decide
theorem EncodeLegal.canvasDxt5 : EncodeLegal.Statement .canvasDxt5 := by unfold EncodeLegal.Statement; decide
theorem EncodeLegal.log2 : EncodeLegal.Statement .log2 := by unfold EncodeLegal.Statement; decide
theorem EncodeLegal.swzOffset : EncodeLegal.Statement .swzOffset := by unfold EncodeLegal.Statement; decide
theorem EncodeLegal.deswizzle : EncodeLegal.Statement .deswizzle := by unfold EncodeLegal.Statement; decide
theorem EncodeLegal.dxt1Block : EncodeLegal.Statement .dxt1Block := by unfold EncodeLegal.Statement; decide
theorem EncodeLegal.dxt3Block : EncodeLegal.Statement .dxt3Block := by unfold EncodeLegal.Statement; decide
theorem EncodeLegal.dxt5Block : EncodeLegal.Statement .dxt5Block := by unfold EncodeLegal.Statement; decide
theorem EncodeLegal.dxt1Surface : EncodeLegal.Statement .dxt1Surface := by unfold EncodeLegal.Statement; decide
theorem EncodeLegal.dxt3Surface : EncodeLegal.Statement .dxt3Surface := by unfold EncodeLegal.Statement; decide
theorem EncodeLegal.dxt5Surface : EncodeLegal.Statement .dxt5Surface := by unfold EncodeLegal.Statement; decide

end Sys2Proof.Laws
end

