-- ==== Sys2Proof/Laws/Safety.lean ====
section
/-! SUPPORT. Lemmas about the terms the statements use. -/
namespace Sys2Proof.Machine

theorem firstCase_nil (otherwise : Prop) : firstCase otherwise [] ↔ otherwise := Iff.rfl

/-- How a first case is proved: by its condition, or by the cases after it. -/
theorem firstCase_cons (otherwise c p : Prop) (rest : List (Prop × Prop)) :
    firstCase otherwise ((c, p) :: rest) ↔ (c → p) ∧ (¬c → firstCase otherwise rest) := Iff.rfl

/-- A case whose condition fails is skipped. -/
theorem firstCase_skip (otherwise c p : Prop) (rest : List (Prop × Prop)) (h : ¬c) :
    firstCase otherwise ((c, p) :: rest) ↔ firstCase otherwise rest :=
  ⟨fun hc => hc.2 h, fun hr => ⟨fun hc => absurd hc h, fun _ => hr⟩⟩

theorem admitted_iff_regionsAdmitted (s : State) (ns nd : Nat) : admitted s ns nd = true ↔ s.regionsAdmitted ns nd :=
  admitted_iff s ns nd

theorem surfaceSrcNeed_eq (k : BlockKind) (s : State) :
    surfaceSrcNeed k s = ((max s.width.toNat 1 + 3) / 4) * ((max s.height.toNat 1 + 3) / 4) * blockBytes k := rfl

/-- Ready regions pass the region checks and are admitted. -/
theorem regionsReady_checks (s : State) (ns nd : Nat) (h : s.regionsReady ns nd) :
    regionError s ns nd = none ∧ admitted s ns nd = true := by
  obtain ⟨h₁, h₂, h₃, h₄, h₅, h₆⟩ := h
  refine ⟨(regionError_eq_none_iff s ns nd).mpr ⟨(srcError_eq_none_iff s ns).mpr ⟨h₁, h₂⟩,
    (dstError_eq_none_iff s nd).mpr ⟨h₃, h₄⟩, (overlapError_eq_none_iff s ns nd).mpr ?_⟩, (admitted_iff s ns nd).mpr h₆⟩
  omega

end Sys2Proof.Machine
end

