-- ==== Sys2Proof/Tests/Slice0.lean ====
section
/-! SUPPORT. Tests. A test's expected values are those of the vector it names (95_test_vectors.md), or are read from the rule it names. A theorem
`witness_<Name>` shows states and operands that meet the hypotheses of `Obligations.<Name>`, a boundary of each clause. -/
namespace Sys2Proof.Tests

open Sys2Proof Sys2Proof.Machine

-- One test after the other: elaborated side by side, each test that waits for the kernel holds a thread with a stack of its own.
set_option Elab.async false

/-! ## Helpers -/

def bytes (l : List Nat) : List Byte := l.map (BitVec.ofNat 8)

/-- A state with two regions, the dimensions, and the given bytes at SRC_ADDR. -/
def regions (src srcLen dst dstLen w h : Nat) (b : List Nat) : State :=
  { State.reset with
    srcAddr := BitVec.ofNat 32 src
    srcLen := BitVec.ofNat 32 srcLen
    dstAddr := BitVec.ofNat 32 dst
    dstLen := BitVec.ofNat 32 dstLen
    width := BitVec.ofNat 16 w
    height := BitVec.ofNat 16 h
    mem := Memory.writeBytes [] src (bytes b) }

/-- RESOLVE_FMT and LOG2 take their operand in OPA, SWZ_OFFSET also in OPB. -/
def operands (a b w h : Nat) : State :=
  { State.reset with
    opa := BitVec.ofNat 32 a
    opb := BitVec.ofNat 32 b
    width := BitVec.ofNat 16 w
    height := BitVec.ofNat 16 h }

/-- The state with one access waiting. -/
def waiting (a : HostAccess) (s : State) : State := { s with hostAccesses := [a] }

/-- One step in which the host writes `w` to CMD. -/
def command (w : Word) (s : State) : Result := step (waiting (.regWrite 0x00 32 w) s)

/-- A property of the next state, if the result has one. -/
def after (r : Result) (p : State → Bool) : Bool :=
  match r with
  | .next t => p t
  | .fault _ => false
  | .refused _ => false

def faults (r : Result) (f : Fault) : Bool :=
  match r with
  | .next _ => false
  | .fault g => decide (g = f)
  | .refused _ => false

def refuses (r : Result) (f : Refusal) : Bool :=
  match r with
  | .next _ => false
  | .fault _ => false
  | .refused g => decide (g = f)

/-- STATUS after a command. -/
def statusIs (r : Result) (v : BitVec 17) : Bool := after r fun t => decide (t.status = v)

/-- Memory from `a` after a command. -/
def memIs (r : Result) (a : Nat) (b : List Nat) : Bool := after r fun t => decide (t.mem.readBytes a b.length = bytes b)

def upTo (n : Nat) : List Nat := List.range n

/-- `header` is the header of V-H1. -/
def header : List Nat := [0x00, 0x08, 0x00, 0x00, 0x00, 0x00, 0x80, 0x3F, 0x40, 0x00, 0x40, 0x00, 0x02, 0x07]

def badWidth : List Nat := [0x00, 0x08, 0x00, 0x00, 0x00, 0x00, 0x00, 0x00, 0x00, 0x80, 0x40, 0x00, 0x02, 0x01]

def bgraCompressed : List Nat := [0x10, 0x00, 0x00, 0x00, 0x00, 0x00, 0x00, 0x00, 0x04, 0x00, 0x04, 0x00, 0x0C, 0x01]

def blockB4 : List Nat := [0x00, 0xF8, 0x1F, 0x00, 0x00, 0x55, 0xAA, 0xFF]

def blockT1 : List Nat := [0x10, 0x32, 0x54, 0x76, 0x98, 0xBA, 0xDC, 0xFE, 0x00, 0x00, 0xFF, 0xFF, 0xE4, 0xE4, 0xE4, 0xE4]

def blockF1 : List Nat := [0xFF, 0x00, 0x88, 0xC6, 0xFA, 0x88, 0xC6, 0xFA, 0xFF, 0xFF, 0xFF, 0xFF, 0x00, 0x00, 0x00, 0x00]

/-- A platform that admits the bytes below 0x1000 only. -/
def smallPlatform (s : State) : State := { s with cfg := { s.cfg with memAdmit := [⟨0, 0x1000⟩] } }

def refusing (s : State) : State := { s with cfg := { s.cfg with swzNonpow2H := .refuse } }

def allInstr : List Instr :=
  [.parseHdr, .resolveFmt, .canvasGray, .canvasRgb, .canvasRgba, .canvasBgra, .canvasDxt1, .canvasDxt3, .canvasDxt5, .log2, .swzOffset,
    .deswizzle, .dxt1Block, .dxt3Block, .dxt5Block, .dxt1Surface, .dxt3Surface, .dxt5Surface]

/-! ## Well-formedness: each check refuses an ill-formed term -/

theorem test_wf_narrow_write : (HostAccess.regWrite 0x08 16 0).wf = false := by decide
theorem test_wf_misaligned_write : (HostAccess.regWrite 0x09 32 0).wf = false := by decide
theorem test_wf_narrow_read : (HostAccess.regRead 0x04 8).wf = false := by decide
theorem test_wf_misaligned_read : (HostAccess.regRead 0x06 32).wf = false := by decide
theorem test_wf_access : (HostAccess.regRead 0x44 32).wf = true := by decide
theorem test_wf_equal_encodings : { Config.specDefault with encBgra := 0x04 }.wf = false := by decide
theorem test_wf_region_past_the_space : { Config.specDefault with memAdmit := [⟨1, 4294967296⟩] }.wf = false := by decide
theorem test_wf_default_parameters : Config.specDefault.wf = true := by decide

/-! ## Decoding: the words of 30_encoding.md R73 written out as RSV, FMT, OP, one per family at least -/

theorem test_decode_parseHdr : decode 0b000000000000000000000_000_00000001#32 = .ok .parseHdr := by decide
theorem test_decode_resolveFmt : decode 0b000000000000000000000_000_00000010#32 = .ok .resolveFmt := by decide
theorem test_decode_canvasBgra : decode 0b000000000000000000000_100_00000011#32 = .ok .canvasBgra := by decide
theorem test_decode_log2 : decode 0b000000000000000000000_000_00000100#32 = .ok .log2 := by decide
theorem test_decode_swzOffset : decode 0b000000000000000000000_000_00000101#32 = .ok .swzOffset := by decide
theorem test_decode_deswizzle : decode 0b000000000000000000000_000_00000110#32 = .ok .deswizzle := by decide
theorem test_decode_dxt5Block : decode 0b000000000000000000000_000_00010010#32 = .ok .dxt5Block := by decide
theorem test_decode_dxt3Surface : decode 0b000000000000000000000_000_00011001#32 = .ok .dxt3Surface := by decide

/-- 30_encoding.md R74, a word for each of its cases. -/
theorem test_decode_illegal :
    decode 0x00000013 = .error .unassignedOpcode ∧ decode 0x00000810 = .error .reservedBits ∧
      decode 0x00000110 = .error .strayFormat ∧ decode 0x00000003 = .error .canvasWithoutFormat := by decide

/-- The decoder on numbers: a word of 4 bytes, and a number that is no 32-bit word. -/
theorem test_decodeTableWord :
    decodeTableWord 32 0x703 = some .canvasDxt5 ∧ decodeTableWord 32 0x803 = none ∧ decodeTableWord 64 0x100000001 = none := by decide

/-- The word placed by `withFetchWord` is the first thing that runs after reset (V-Q14, 70_reset_and_hazards.md R233). -/
theorem test_fetch_from_reset :
    after (step (State.reset.withFetchWord 32 0x103)) (fun t => decide (t.canvasDim = 0x00010001 ∧ t.levelBytes = 1 ∧ t.hostAccesses = [])) =
      true := by decide +kernel

/-! ## Vectors -/

theorem test_vE_illegal_words :
    (statusIs (command 0x00000000 State.reset) 0x10004 && statusIs (command 0x00000810 State.reset) 0x11004 &&
      statusIs (command 0x00000003 State.reset) 0x10304 && statusIs (command 0x00000013 State.reset) 0x11304 &&
      statusIs (command 0xFFFFFFFF State.reset) 0x1FF04) = true := by decide +kernel

theorem test_vH1 :
    after (command 0x01 (regions 0x1000 128 0 0 0 0 header)) (fun t => decide (t.hdrDsize = 0x800 ∧ t.hdrUnk1 = 0x3F800000 ∧
      t.hdrDim = 0x00400040 ∧ t.hdrInfo = 0x10702 ∧ t.fmt = 0x10445 ∧ t.status = 0x10100)) = true := by decide +kernel

theorem test_vH2_vH3_vH5_vH7 :
    (statusIs (command 0x01 (regions 0x1000 128 0 0 0 0 badWidth)) 0x10101 &&
      statusIs (command 0x01 (regions 0x1000 128 0 0 0 0 bgraCompressed)) 0x10102 &&
      statusIs (command 0x01 (regions 0x1000 127 0 0 0 0 header)) 0x10103 &&
      statusIs (command 0x01 (regions 0xFFFFFF81 128 0 0 0 0 [])) 0x10106) = true := by decide +kernel

theorem test_vR1_vR4 :
    (after (command 0x02 (operands 0x104 0 0 0)) (fun t => decide (t.fmt = 0x30847 ∧ t.status = 0x10200)) &&
      after (command 0x02 (operands 0x10C 0 0 0)) (fun t => decide (t.fmt = 0 ∧ t.status = 0x10202))) = true := by decide +kernel

theorem test_vR6_vR10 :
    (after (command 0x02 (operands 0x0C 0 0 0)) (fun t => decide (t.fmt = 0x42014)) &&
      after (command 0x02 (operands 0xFFFFFE04 0 0 0)) (fun t => decide (t.fmt = 0x2013))) = true := by decide +kernel

/-- V-Q10, V-Q3, V-Q4, V-Q9, V-Q6, V-Q5, V-Q1: one vector for each CANVAS word. -/
theorem test_vQ_results :
    ([(0x103, 0, 7, 0x00070001, 0x7), (0x203, 1, 1, 0x00010001, 0x3), (0x303, 0x7FFF, 0x7FFF, 0x7FFF7FFF, 0xFFFC0004),
      (0x403, 4, 4, 0x00040004, 0x40), (0x503, 3, 6, 0x00080004, 0x10), (0x603, 0x7FFF, 0x7FFF, 0x80008000, 0x40000000),
      (0x703, 5, 5, 0x00080008, 0x40)] : List (Word × Nat × Nat × Word × Word)).all (fun v =>
        after (command v.1 (operands 0 0 v.2.1 v.2.2.1)) fun t => decide (t.canvasDim = v.2.2.2.1 ∧ t.levelBytes = v.2.2.2.2)) = true := by
  decide +kernel

theorem test_vQ12 : statusIs (command 0x103 (operands 0 0 0x8000 1)) 0x10301 = true := by decide +kernel

/-- V-L1, V-L4, V-L7, V-L11, V-L13. -/
theorem test_vL_results :
    ([(0, 0), (3, 1), (64, 6), (0x07C4ACDD, 26), (0xFFFFFFFF, 31)] : List (Nat × Word)).all (fun v =>
      after (command 0x04 (operands v.1 0 0 0)) fun t => decide (t.result = v.2 ∧ t.status = 0x10400)) = true := by decide +kernel

/-- V-S3, V-S5, V-S6, V-S7, V-S12. -/
theorem test_vS_results :
    ([(2, 1, 4, 4, 6), (5, 1, 8, 2, 11), (1, 5, 2, 8, 11), (4, 0, 4, 4, 0), (0, 3, 1, 8, 3)] : List (Nat × Nat × Nat × Nat × Word)).all (fun v =>
      after (command 0x05 (operands v.1 v.2.1 v.2.2.1 v.2.2.2.1)) fun t => decide (t.result = v.2.2.2.2)) = true := by decide +kernel

theorem test_vD1 :
    memIs (command 0x06 (regions 0x3000 64 0x4000 64 4 4 (upTo 64))) 0x4000
      [0x00, 0x01, 0x02, 0x03, 0x04, 0x05, 0x06, 0x07, 0x10, 0x11, 0x12, 0x13, 0x14, 0x15, 0x16, 0x17,
       0x08, 0x09, 0x0A, 0x0B, 0x0C, 0x0D, 0x0E, 0x0F, 0x18, 0x19, 0x1A, 0x1B, 0x1C, 0x1D, 0x1E, 0x1F] = true := by decide +kernel

theorem test_vD4_vD6_vD10 :
    (refuses (command 0x06 (refusing (regions 0x3000 24 0x4000 24 2 3 (upTo 24)))) .nonpow2Height &&
      memIs (command 0x06 (regions 0x3000 16 0x4000 16 0 4 (upTo 16))) 0x4000 (upTo 16) &&
      statusIs (command 0x06 (regions 0x3000 64 0x3020 64 4 4 (upTo 64))) 0x10606) = true := by decide +kernel

theorem test_vB4 :
    memIs (command 0x10 (regions 0x100 8 0x200 64 0 0 blockB4)) 0x200
      [0xFF, 0, 0, 0xFF, 0xFF, 0, 0, 0xFF, 0xFF, 0, 0, 0xFF, 0xFF, 0, 0, 0xFF, 0, 0, 0xFF, 0xFF, 0, 0, 0xFF, 0xFF, 0, 0, 0xFF, 0xFF, 0, 0, 0xFF, 0xFF,
       0xAA, 0, 0x55, 0xFF, 0xAA, 0, 0x55, 0xFF, 0xAA, 0, 0x55, 0xFF, 0xAA, 0, 0x55, 0xFF,
       0x55, 0, 0xAA, 0xFF, 0x55, 0, 0xAA, 0xFF, 0x55, 0, 0xAA, 0xFF, 0x55, 0, 0xAA, 0xFF] = true := by decide +kernel

theorem test_vB2 :
    memIs (command 0x10 (regions 0x100 8 0x200 64 0 0 [0x00, 0x00, 0xFF, 0xFF, 0xE4, 0xE4, 0xE4, 0xE4])) 0x200
      [0, 0, 0, 0xFF, 0xFF, 0xFF, 0xFF, 0xFF, 0x80, 0x80, 0x80, 0xFF, 0, 0, 0, 0] = true := by decide +kernel

theorem test_vT1 :
    memIs (command 0x11 (regions 0x100 16 0x200 64 0 0 blockT1)) 0x200
      [0, 0, 0, 0, 0xFF, 0xFF, 0xFF, 0x10, 0x55, 0x55, 0x55, 0x20, 0xAA, 0xAA, 0xAA, 0x30, 0, 0, 0, 0x40] = true := by decide +kernel

theorem test_vF1_alpha :
    memIs (command 0x12 (regions 0x100 16 0x200 64 0 0 blockF1)) 0x200
      [0xFF, 0xFF, 0xFF, 0xFF, 0xFF, 0xFF, 0xFF, 0x00, 0xFF, 0xFF, 0xFF, 0xDB, 0xFF, 0xFF, 0xFF, 0xB6, 0xFF, 0xFF, 0xFF, 0x92] = true := by
  decide +kernel

theorem test_vU2 :
    memIs (command 0x18 (regions 0x100 8 0x200 36 3 3 blockB4)) 0x200
      [0xAA, 0, 0x55, 0xFF, 0xAA, 0, 0x55, 0xFF, 0xAA, 0, 0x55, 0xFF, 0, 0, 0xFF, 0xFF, 0, 0, 0xFF, 0xFF, 0, 0, 0xFF, 0xFF,
       0xFF, 0, 0, 0xFF, 0xFF, 0, 0, 0xFF, 0xFF, 0, 0, 0xFF] = true := by decide +kernel

theorem test_vU3_vU5_vU6 :
    (statusIs (command 0x18 (regions 0x100 16 0x200 0 0 5 (blockB4 ++ blockB4))) 0x11800 &&
      statusIs (command 0x18 (regions 0x100 31 0x200 100 5 5 [])) 0x11803 &&
      statusIs (command 0x18 (regions 0x100 32 0x200 99 5 5 [])) 0x11805) = true := by decide +kernel

theorem test_vT3 :
    memIs (command 0x19 (regions 0x100 16 0x200 64 4 4 blockT1)) 0x200
      [0, 0, 0, 0xC0, 0xFF, 0xFF, 0xFF, 0xD0, 0x55, 0x55, 0x55, 0xE0, 0xAA, 0xAA, 0xAA, 0xF0, 0, 0, 0, 0x80] = true := by decide +kernel

theorem test_vF6 :
    memIs (command 0x1A (regions 0x100 16 0x200 64 4 4 blockF1)) 0x200
      [0xFF, 0xFF, 0xFF, 0x92, 0xFF, 0xFF, 0xFF, 0x6D, 0xFF, 0xFF, 0xFF, 0x49, 0xFF, 0xFF, 0xFF, 0x24, 0xFF, 0xFF, 0xFF, 0xFF] = true := by
  decide +kernel

theorem test_vU7 : statusIs (command 0x1A (regions 0x100 16 0x200 64 0x8000 4 [])) 0x11A01 = true := by decide +kernel

/-- Program P4's register accesses: bits [31:16] of WIDTH are dropped; a read of STATUS returns it. -/
theorem test_register_accesses :
    (after (step (waiting (.regWrite 0x18 32 0x00018000) State.reset)) (fun t => decide (t.width = 0x8000)) &&
      after (step (waiting (.regRead 0x04 32) { State.reset with status := 0x10004 })) (fun t => decide (t.reads = [0x00010004])) &&
      refuses (step (waiting (.regRead 0x04 16) State.reset)) .registerAccess) = true := by decide +kernel

/-! ## Witnesses of the statements' hypotheses -/

/-- A legal and an illegal command word, and the two ends of the illegal ones. -/
theorem witness_DecodeSelectsExactlyTheLegalWords :
    (∃ i, decode 0x00000001 = .ok i) ∧ (∃ r, decode 0x00000000 = .error r) ∧ (∃ r, decode 0xFFFFFFFF = .error r) :=
  ⟨⟨.parseHdr, by decide⟩, ⟨.unassignedOpcode, by decide⟩, ⟨.reservedBits, by decide⟩⟩

/-- A word for each of the four cases of R74, and one of them waiting as the next access. -/
theorem witness_IllegalWordsCompleteWithIllegalCommand :
    (decode 0x00000000 = .error .unassignedOpcode ∧ decode 0x00000800 = .error .reservedBits ∧ decode 0x00000101 = .error .strayFormat ∧
      decode 0x00000003 = .error .canvasWithoutFormat) ∧
    (waiting (.regWrite 0x00 32 0x800) State.reset).hostAccesses = .regWrite 0x00 32 0x800 :: [] := by decide

theorem witness_StepRunsTheDecodedInstruction :
    (waiting (.regWrite 0x00 32 0x1A) State.reset).hostAccesses = .regWrite 0x00 32 0x1A :: [] ∧ decode 0x1A = .ok .dxt5Surface := by decide

/-- Every point of R22: (a) by width and by alignment, (b) to (d) at the ends of their offsets, (e) and (f) at a truncating register, (g). -/
theorem witness_RegisterAccessRules :
    ((31 ≠ 32 ∨ (0x04#8).toNat % 4 ≠ 0) ∧ ((32 : Nat) ≠ 32 ∨ (0x07#8).toNat % 4 ≠ 0)) ∧
    ((waiting (.regRead 0x44 32) State.reset).hostAccesses = .regRead 0x44 32 :: [] ∧
      (waiting (.regRead 0x00 32) State.reset).hostAccesses = .regRead 0x00 32 :: []) ∧
    ((0x48#8).toNat % 4 = 0 ∧ 0x48 ≤ (0x48#8).toNat ∧ (0xFC#8).toNat % 4 = 0 ∧ 0x48 ≤ (0xFC#8).toNat) ∧
    (0x44#8 ∈ ([0x04, 0x28, 0x2C, 0x30, 0x34, 0x38, 0x3C, 0x40, 0x44] : List (BitVec 8)) ∧
      (waiting (.regWrite 0x44 32 5) State.reset).hostAccesses = .regWrite 0x44 32 5 :: []) ∧
    (waiting (.regWrite 0x18 32 0x18000) State.reset).hostAccesses = .regWrite 0x18 32 0x18000 :: [] ∧
    (waiting (.regWrite 0x00 32 0) State.reset).hostAccesses = .regWrite 0x00 32 0 :: [] := by decide

/-- A platform reset of a machine that has run: every register the rule names was something else before. -/
theorem witness_ResetClearsEveryRegister :
    let s := waiting .reset { regions 0x100 8 0x200 64 1 2 [] with
      status := 0x11006, opa := 3, opb := 4, result := 5, fmt := 0x10445, canvasDim := 6, levelBytes := 7, hdrDsize := 8, hdrUnk1 := 9,
      hdrDim := 10, hdrInfo := 11 }
    s.hostAccesses = .reset :: [] ∧ after (step s) (fun t => decide (t.status = 0)) = true := by decide +kernel

theorem witness_PlatformResetKeepsMemory :
    (waiting .reset (regions 0x100 8 0 0 0 0 blockB4)).hostAccesses = .reset :: [] := by decide

theorem witness_IdleBlockWaits : (regions 0x100 8 0 0 0 0 blockB4).hostAccesses = [] := by decide

/-- The last admitted byte and the first one that is not. -/
theorem witness_HostStoreWritesOneByte :
    let s := waiting (.memWrite 0xFFF 7) (smallPlatform State.reset)
    let s' := waiting (.memWrite 0x1000 7) (smallPlatform State.reset)
    (s.hostAccesses = .memWrite 0xFFF 7 :: [] ∧ admitsByte s.cfg (0xFFF#32).toNat = true) ∧
      (s'.hostAccesses = .memWrite 0x1000 7 :: [] ∧ admitsByte s'.cfg (0x1000#32).toNat = false) := by decide

/-- The ends of the three clauses: one byte short, one byte past 2^32, ending at 2^32. -/
theorem witness_SourceCheckRule :
    (regions 0 127 0 0 0 0 []).srcLen.toNat < 128 ∧
    (let s := regions 0xFFFFFF81 128 0 0 0 0 []; 128 ≤ s.srcLen.toNat ∧ s.srcAddr.toNat + 128 > 2 ^ 32) ∧
    (let s := regions 0xFFFFFF80 128 0 0 0 0 []; 128 ≤ s.srcLen.toNat ∧ s.srcAddr.toNat + 128 ≤ 2 ^ 32) := by decide

theorem witness_DestinationCheckRule :
    (regions 0 0 0 63 0 0 []).dstLen.toNat < 64 ∧
    (let s := regions 0 0 0xFFFFFFC1 64 0 0 []; 64 ≤ s.dstLen.toNat ∧ s.dstAddr.toNat + 64 > 2 ^ 32) ∧
    (let s := regions 0 0 0xFFFFFFC0 64 0 0 []; 64 ≤ s.dstLen.toNat ∧ s.dstAddr.toNat + 64 ≤ 2 ^ 32) := by decide

/-- V-B13 and V-B14: sharing one byte and none, both regions passing their own checks. -/
theorem witness_OverlapCheckFindsSharedBytes :
    (let s := regions 0x100 8 0xC1 64 0 0 [];
      overlapError s 8 64 = some .badRegion ∧ srcError s 8 = none ∧ dstError s 64 = none) ∧
    (let s := regions 0x100 8 0xC0 64 0 0 [];
      overlapError s 8 64 = none ∧ srcError s 8 = none ∧ dstError s 64 = none) := by decide

/-- A state for each case of R203 that is the first to hold there, in the order of the statement's list. -/
theorem witness_ReportedOutcomeFollowsPriority :
    (statusIs (runCommand 0x00000000 State.reset) 0x10004 &&
      statusIs (runCommand 0x06 (regions 0 0 0 0 0x8000 0 [])) 0x10601 &&
      statusIs (runCommand 0x10 (regions 0xFFFFFFFF 7 0 0 0 0 [])) 0x11003 &&
      statusIs (runCommand 0x10 (regions 0xFFFFFFF9 8 0 0 0 0 [])) 0x11006 &&
      faults (runCommand 0x01 (smallPlatform (regions 0xF81 128 0 0 0 0 []))) .stuckUnadmitted &&
      statusIs (runCommand 0x01 (smallPlatform (regions 0xF80 128 0 0 0 0 badWidth))) 0x10101 &&
      statusIs (runCommand 0x01 (regions 0x1000 128 0 0 0 0 bgraCompressed)) 0x10102 &&
      statusIs (runCommand 0x02 (operands 0x10C 0 0 0)) 0x10202 &&
      statusIs (runCommand 0x10 (regions 0x100 8 0xFFFFFFFF 63 0 0 [])) 0x11005 &&
      statusIs (runCommand 0x10 (regions 0x100 8 0xFFFFFFC1 64 0 0 [])) 0x11006 &&
      statusIs (runCommand 0x10 (regions 0x100 8 0xC1 64 0 0 [])) 0x11006 &&
      refuses (runCommand 0x06 (smallPlatform (refusing (regions 0x3000 24 0x4000 24 2 3 [])))) .nonpow2Height &&
      faults (runCommand 0x10 (smallPlatform (regions 0xFF9 8 0x200 64 0 0 []))) .stuckUnadmitted &&
      statusIs (runCommand 0x10 (smallPlatform (regions 0xFF8 8 0x200 64 0 0 []))) 0x11000) = true := by decide +kernel

theorem witness_ErrorCompletionWritesOnlyStatus :
    after (runCommand 0x00000013 (operands 1 2 3 4)) (fun t => decide (t.err ≠ 0)) = true := by decide +kernel

/-- A completed command, a step that changes STATUS, and a step that clears DONE. -/
theorem witness_OnlyCommandsAndResetWriteStatus :
    after (runCommand 0x04 State.reset) (fun _ => true) = true ∧
    after (command 0x04 State.reset) (fun t => decide (t.status ≠ State.reset.status)) = true ∧
    (let s := waiting .reset { State.reset with status := 0x10400 };
      s.done = true ∧ after (step s) (fun t => decide (t.done = false)) = true) := by decide +kernel

/-- Every command answers a next state right after reset; six of them report an error there, the source or destination being empty. -/
theorem witness_ErrorCodesByCommand :
    (allInstr.all fun i => after (exec i State.reset) fun _ => true) = true := by decide +kernel

theorem witness_CommandWriteSet :
    (allInstr.all fun i => after (exec i { regions 0x1000 128 0x200 64 1 1 header with opa := 1 }) fun t => decide (t.err = 0)) = true := by
  decide +kernel

/-- A successful command that stores, and one that ends in an error. -/
theorem witness_CommandsStoreOnlyInTheDestination :
    after (exec .dxt1Block (regions 0x100 8 0x200 64 0 0 blockB4)) (fun t => decide (t.err = 0)) = true ∧
    after (exec .dxt1Block (regions 0x100 8 0x200 63 0 0 blockB4)) (fun t => decide (t.err ≠ 0)) = true := by decide +kernel

theorem witness_AdmittedCommandsAlwaysComplete : State.reset.allAdmitted ∧ State.reset.cfg.swzNonpow2H = .literal :=
  ⟨fun a h => by
    have h' : a < 4294967296 := h
    simp [admitsByte, State.reset, Config.specDefault, h'], rfl⟩

theorem witness_StepKeepsTheParameters : after (command 0x04 State.reset) (fun _ => true) = true := by decide +kernel

/-- A machine after PARSE_HDR, CANVAS.DXT1 and LOG2 with one byte of memory: every register the invariant names holds a value. -/
theorem witness_StepKeepsTheInvariant :
    let s := waiting (.regWrite 0x00 32 0x05) { operands 1 1 4 4 with
      status := 0x10400, fmt := 0x10445, canvasDim := 0x00400040, levelBytes := 0x800, hdrDsize := 0x800, hdrDim := 0x00400040,
      hdrInfo := 0x10702, result := 6, mem := [(0xFFFFFFFF, 1)] }
    s.Inv ∧ after (step s) (fun _ => true) = true := by
  refine ⟨⟨by decide +kernel, ?_, .inr ⟨.dxt1, by decide, by decide⟩, ?_, ?_, ?_⟩, by decide +kernel⟩
  · unfold State.statusLegal; decide +kernel
  · unfold State.canvasLegal; decide +kernel
  · unfold State.headerLegal; decide +kernel
  · unfold State.resultLegal; decide +kernel

theorem witness_ResolverTable : Config.specDefault.encDistinct = true := by decide

/-- A state for each clause: one byte short, one past 2^32, one byte not admitted, width and height at 0x8000, an unsupported pair, V-H1 at the
end of the address space (V-H11). -/
theorem witness_ParseHdrResults :
    (regions 0 127 0 0 0 0 []).srcLen.toNat < 128 ∧
    (let s := regions 0xFFFFFF81 128 0 0 0 0 []; 128 ≤ s.srcLen.toNat ∧ s.srcAddr.toNat + 128 > 2 ^ 32) ∧
    (let s := smallPlatform (regions 0xF81 128 0 0 0 0 []);
      128 ≤ s.srcLen.toNat ∧ s.srcAddr.toNat + 128 ≤ 2 ^ 32 ∧ ¬s.regionsAdmitted 128 0) ∧
    (let s := regions 0x1000 128 0 0 0 0 badWidth;
      128 ≤ s.srcLen.toNat ∧ s.srcAddr.toNat + 128 ≤ 2 ^ 32 ∧ s.regionsAdmitted 128 0 ∧
        (s.mem.read (0x1000 + 9) ++ s.mem.read (0x1000 + 8)).toNat = 0x8000) ∧
    (let s := regions 0x1000 128 0 0 0 0 bgraCompressed;
      128 ≤ s.srcLen.toNat ∧ s.regionsAdmitted 128 0 ∧ resolve s.cfg (s.mem.read (0x1000 + 12)) true = none ∧ s.mem.read 0x1000 ≠ 0) ∧
    (let s := regions 0xFFFFFF80 128 0 0 0 0 header;
      128 ≤ s.srcLen.toNat ∧ s.srcAddr.toNat + 128 ≤ 2 ^ 32 ∧ s.regionsAdmitted 128 0 ∧
        resolve s.cfg (s.mem.read (0xFFFFFF80 + 12)) true = some .dxt1) := by decide +kernel

theorem witness_ResolveFmtResults :
    (let s := operands 0x104 0 0 0; resolve s.cfg (s.opa.extractLsb' 0 8) (s.opa.getLsbD 8) = some .dxt5) ∧
    (let s := operands 0 0 0 0; resolve s.cfg (s.opa.extractLsb' 0 8) (s.opa.getLsbD 8) = none) := by decide

/-- Both sides of the limit on each dimension. -/
theorem witness_CanvasResults :
    (operands 0 0 0x7FFF 0x7FFF).dimsLegal ∧ (operands 0 0 0 0).dimsLegal ∧ ¬(operands 0 0 0x8000 0).dimsLegal ∧
      ¬(operands 0 0 0 0x8000).dimsLegal := by decide

theorem witness_CanvasResultsAreExact : (0x7FFF : Nat) < 0x8000 ∧ (0 : Nat) < 0x8000 := by decide

/-- Unit 4 at width 5: 8 is a multiple that is at least 5. -/
theorem witness_CanvasIsTheLeastMultiple : 0 < 4 ∧ 4 ∣ 8 ∧ max 5 1 ≤ 8 := by decide

/-- Budgets 3 and 1, then 1 and 3: each clause at the ends of its range. -/
theorem witness_InterleaveBitSources :
    (0 < 2 * min 3 1 ∧ 0 % 2 = 0) ∧ (1 < 2 * min 3 1 ∧ 1 % 2 = 1) ∧ (2 * 1 ≤ 2 ∧ 3 < 3 + 1) ∧ (2 * 1 ≤ 2 ∧ 3 < 1 + 3) ∧ 3 + 1 ≤ 4 := by
  decide

theorem witness_InterleaveIsBijective :
    (7 < 2 ^ 3 ∧ 1 < 2 ^ 1 ∧ interleave 7 1 3 1 = interleave 7 1 3 1) ∧ 15 < 2 ^ (3 + 1) := by decide

theorem witness_SwzOffsetResults : (operands 0 0 0x7FFF 0).dimsLegal ∧ ¬(operands 0 0 0x8000 4).dimsLegal := by decide

/-- V-D1 and, under `literal`, V-D3; a width of 1 and a height of 0. -/
theorem witness_DeswizzleReordersPixels :
    (let s := refusing (regions 0x3000 64 0x4000 64 4 4 []);
      s.width.toNat = 2 ^ 2 ∧ s.dimsLegal ∧ max s.height.toNat 1 = 2 ^ 2 ∧
        s.regionsReady (s.width.toNat * max s.height.toNat 1 * 4) (s.width.toNat * max s.height.toNat 1 * 4)) ∧
    (let s := regions 0x3000 24 0x4000 24 2 3 [];
      s.width.toNat = 2 ^ 1 ∧ s.dimsLegal ∧ s.cfg.swzNonpow2H = .literal ∧
        s.regionsReady (s.width.toNat * max s.height.toNat 1 * 4) (s.width.toNat * max s.height.toNat 1 * 4)) ∧
    (let s := regions 0x3000 4 0x3004 4 1 0 [];
      s.width.toNat = 2 ^ 0 ∧ s.dimsLegal ∧
        s.regionsReady (s.width.toNat * max s.height.toNat 1 * 4) (s.width.toNat * max s.height.toNat 1 * 4)) := by decide +kernel

/-- V-D5 and V-D6. -/
theorem witness_DeswizzleCopiesOtherWidths :
    (let s := regions 0x3000 36 0x4000 36 3 3 [];
      (∀ e, s.width.toNat ≠ 2 ^ e) ∧ s.dimsLegal ∧
        s.regionsReady (max s.width.toNat 1 * max s.height.toNat 1 * 4) (max s.width.toNat 1 * max s.height.toNat 1 * 4)) ∧
    (let s := regions 0x3000 16 0x4000 16 0 4 [];
      (∀ e, s.width.toNat ≠ 2 ^ e) ∧ s.dimsLegal ∧
        s.regionsReady (max s.width.toNat 1 * max s.height.toNat 1 * 4) (max s.width.toNat 1 * max s.height.toNat 1 * 4)) := by
  have three : ∀ e, 3 ≠ 2 ^ e := fun e h => by
    match e with
    | 0 => exact absurd h (by decide)
    | 1 => exact absurd h (by decide)
    | e + 2 => rw [pow_add] at h; omega
  exact ⟨⟨three, by decide +kernel⟩, ⟨fun e => (Nat.two_pow_pos e).ne, by decide +kernel⟩⟩

theorem witness_DeswizzleIsAPermutation :
    let s := regions 0x3000 64 0x4000 64 4 4 (upTo 64)
    s.width.toNat = 2 ^ 2 ∧ max s.height.toNat 1 = 2 ^ 2 ∧ after (exec .deswizzle s) (fun t => decide (t.err = 0)) = true := by decide +kernel

/-- V-D3 and V-D4. -/
theorem witness_DeswizzleNonPow2Height :
    let s := regions 0x3000 24 0x4000 24 2 3 (upTo 24)
    s.width.toNat = 2 ^ 1 ∧ (∀ d, max s.height.toNat 1 ≠ 2 ^ d) ∧
      after (exec .deswizzle s) (fun t => decide (t.err = 0)) = true ∧
      (refusing s).dimsLegal ∧
      (refusing s).regionsReady (s.width.toNat * max s.height.toNat 1 * 4) (s.width.toNat * max s.height.toNat 1 * 4) := by
  have three : ∀ d, 3 ≠ 2 ^ d := fun d h => by
    match d with
    | 0 => exact absurd h (by decide)
    | 1 => exact absurd h (by decide)
    | d + 2 => rw [pow_add] at h; omega
  exact ⟨by decide +kernel, three, by decide +kernel⟩

/-- The ends of the range of a 5-bit and of a 6-bit channel. -/
theorem witness_ChannelExpansions : (31 : Nat) < 32 ∧ (0 : Nat) < 32 ∧ (63 : Nat) < 64 ∧ (0 : Nat) < 64 := by decide

/-- The ends of the range, and a pair whose half is a tie. -/
theorem witness_BlendsRoundToNearest : (255 : Nat) ≤ 255 ∧ (0 : Nat) ≤ 255 ∧ (255 + 0) % 2 = 1 := by decide

/-- Both orders at the ends, equal endpoints, and the first and last index of each clause. -/
theorem witness_AlphaPaletteEntries :
    ((255 : Nat) ≤ 255 ∧ (0 : Nat) ≤ 255 ∧ (255 : Nat) > 0 ∧ (2 : Nat) ≤ 2 ∧ (7 : Nat) ≤ 7) ∧
      ((100 : Nat) ≤ 100 ∧ (0 : Nat) ≤ 255 ∧ (2 : Nat) ≤ 2 ∧ (5 : Nat) ≤ 5) := by decide

/-- Four-colour mode, punch-through, and equal colours. -/
theorem witness_PaletteModes : (0xFFFF : Nat) > 0 ∧ (0 : Nat) ≤ 0xFFFF ∧ (0x1234 : Nat) = 0x1234 := by decide

theorem witness_BlockPixelsByTheirBytes :
    (bytes blockB4).length = 8 ∧ (bytes blockF1).length = 16 ∧ (0 : Nat) < 4 ∧ (3 : Nat) < 4 := by decide

/-- The source ending where the address space ends, the destination ending where the source starts; and the other way round. -/
theorem witness_BlockCommandsWriteSixteenPixels :
    (regions 0xFFFFFFF8 8 0xFFFFFFB8 64 0 0 []).regionsReady 8 64 ∧ (regions 0xFFFFFFB0 16 0xFFFFFFC0 64 0 0 []).regionsReady 16 64 := by
  decide +kernel

/-- V-U2, and one pixel. -/
theorem witness_SurfaceCommandsFlipAndClip :
    (let s := regions 0x100 8 0x200 36 3 3 []; s.dimsLegal ∧ s.regionsReady 8 (3 * 3 * 4)) ∧
    (let s := regions 0x100 16 0x110 4 1 1 []; s.dimsLegal ∧ s.regionsReady 16 (1 * 1 * 4)) := by decide +kernel

/-- V-U3, and the source one byte short. -/
theorem witness_EmptySurfaceWritesNothing :
    (let s := regions 0x100 16 0x200 0 0 5 []; s.dimsLegal ∧ s.width = 0 ∧ s.regionsReady 16 0) ∧
    (let s := regions 0x100 15 0x200 0 5 0 []; s.dimsLegal ∧ s.height = 0 ∧ s.srcLen.toNat < 16) := by decide +kernel

/-- The same block at two places with two destinations: a surface, and a DXT1 block under other dimensions and another ENC_GRAY. -/
theorem witness_DecodersArePureFunctions :
    (let s := regions 0x100 16 0x200 64 4 4 blockT1;
      let s' := regions 0x300 16 0x180 64 4 4 blockT1;
      (s.width = s'.width ∧ s.height = s'.height) ∧ s.cfg = s'.cfg ∧
        (∀ k, k < srcNeed .dxt3Surface s → s.mem.read (s.srcAddr.toNat + k) = s'.mem.read (s'.srcAddr.toNat + k)) ∧
        after (exec .dxt3Surface s) (fun t => decide (t.err = 0)) = true ∧
        after (exec .dxt3Surface s') (fun t => decide (t.err = 0)) = true) ∧
    (let s := regions 0x100 8 0x200 64 1 2 blockB4;
      let s' := { regions 0x300 9 0x180 99 3 4 blockB4 with cfg := { Config.specDefault with encGray := 9 } };
      s.cfg.expand565 = s'.cfg.expand565 ∧ s.cfg.outOrder = s'.cfg.outOrder ∧ s.cfg.blendTie = s'.cfg.blendTie ∧
        (∀ k, k < srcNeed .dxt1Block s → s.mem.read (s.srcAddr.toNat + k) = s'.mem.read (s'.srcAddr.toNat + k)) ∧
        after (exec .dxt1Block s) (fun t => decide (t.err = 0)) = true ∧
        after (exec .dxt1Block s') (fun t => decide (t.err = 0)) = true) := by decide +kernel

end Sys2Proof.Tests
end

section
/-! The host's register accesses (10_state.md R22, R23): what a read and a write at each offset do, then what a step that performs one does. -/
namespace Sys2Proof.Machine

variable {s : State} {rest : List HostAccess} {off : BitVec 8} {bits : Nat} {r : Reg} {v : Word}

/-! ## The register map -/

theorem eq_regOffset_of_regAt (h : regAt off = some r) : off = regOffset r := by
  unfold regAt at h
  split at h <;> cases h <;> rfl

theorem regOffset_lt (r : Reg) : (regOffset r).toNat < 0x48 := by cases r <;> decide

/-- The reserved offsets are those past the last register (R22 d). -/
theorem regAt_reserved (h : 0x48 ≤ off.toNat) : regAt off = none := by
  cases hr : regAt off with
  | none => rfl
  | some r =>
    have hlt := regOffset_lt r
    rw [← eq_regOffset_of_regAt hr] at hlt
    omega

/-- The registers in the order of the map of R23. -/
def registerMap : List Reg :=
  [.cmd, .status, .srcAddr, .srcLen, .dstAddr, .dstLen, .width, .height, .opa, .opb, .result, .fmt, .canvasDim, .levelBytes,
    .hdrDsize, .hdrUnk1, .hdrDim, .hdrInfo]

/-- The registers the map of R23 marks RO. -/
def readOnlyRegs : List Reg := [.status, .result, .fmt, .canvasDim, .levelBytes, .hdrDsize, .hdrUnk1, .hdrDim, .hdrInfo]

/-- The registers the map of R23 marks RW. -/
def readWriteRegs : List Reg := [.srcAddr, .srcLen, .dstAddr, .dstLen, .width, .height, .opa, .opb]

theorem ne_cmd_of_mem_readOnlyRegs (h : r ∈ readOnlyRegs) : r ≠ .cmd := ne_of_mem_of_not_mem h (by decide)

theorem ne_cmd_of_mem_readWriteRegs (h : r ∈ readWriteRegs) : r ≠ .cmd := ne_of_mem_of_not_mem h (by decide)

/-! ## What a read returns and a write does -/

theorem readOffset_regOffset (s : State) (r : Reg) : readOffset s (regOffset r) = readReg s r := by
  rw [readOffset, regAt_regOffset]

theorem readOffset_reserved (s : State) (h : 0x48 ≤ off.toNat) : readOffset s off = 0 := by
  rw [readOffset, regAt_reserved h]

/-- The accesses still to come are no register. -/
theorem readReg_setAccesses (s : State) (l : List HostAccess) (r : Reg) : readReg (s.setAccesses l) r = readReg s r := by
  cases r <;> rfl

theorem writeReg_readOnly (h : r ∈ readOnlyRegs) (v : Word) (s : State) : writeReg r v s = s := by
  fin_cases h <;> rfl

theorem hostRegWrite_cmd (v : Word) (s : State) : hostRegWrite (regOffset .cmd) v s = runCommand v s := rfl

theorem hostRegWrite_regOffset (h : r ≠ .cmd) (v : Word) (s : State) :
    hostRegWrite (regOffset r) v s = .next (writeReg r v s) := by
  rw [hostRegWrite, regAt_regOffset]
  split
  · next hr => exact absurd (Option.some.inj hr) h
  · next hr => rw [Option.some.inj hr]
  · next hr => cases hr

theorem hostRegWrite_reserved (h : 0x48 ≤ off.toNat) (v : Word) (s : State) : hostRegWrite off v s = .next s := by
  rw [hostRegWrite, regAt_reserved h]

theorem accessAllowed_eq_false_iff : accessAllowed off bits = false ↔ bits ≠ 32 ∨ off.toNat % 4 ≠ 0 := by
  rw [accessAllowed, Bool.and_eq_false_iff, beq_eq_false_iff_ne, beq_eq_false_iff_ne]

/-! ## A step that performs a register access -/

theorem step_regWrite_refused (hbad : bits ≠ 32 ∨ off.toNat % 4 ≠ 0) (h : s.hostAccesses = .regWrite off bits v :: rest) :
    step s = .refused .registerAccess := by
  simp [step_cons s _ rest h, performAccess, accessAllowed_eq_false_iff.mpr hbad]

theorem step_regRead_refused (hbad : bits ≠ 32 ∨ off.toNat % 4 ≠ 0) (h : s.hostAccesses = .regRead off bits :: rest) :
    step s = .refused .registerAccess := by
  simp [step_cons s _ rest h, performAccess, accessAllowed_eq_false_iff.mpr hbad]

theorem step_regRead (halign : off.toNat % 4 = 0) (h : s.hostAccesses = .regRead off 32 :: rest) :
    step s = .next ((s.setAccesses rest).pushRead (readOffset (s.setAccesses rest) off)) := by
  rw [step_cons s _ rest h, performAccess_regRead off _ halign]

theorem step_regWrite (halign : off.toNat % 4 = 0) (h : s.hostAccesses = .regWrite off 32 v :: rest) :
    step s = hostRegWrite off v (s.setAccesses rest) := by
  rw [step_cons s _ rest h, performAccess_regWrite off v _ halign]

theorem step_read_register (r : Reg) (h : s.hostAccesses = .regRead (regOffset r) 32 :: rest) :
    step s = .next ((s.setAccesses rest).pushRead (readReg s r)) := by
  rw [step_regRead (regOffset_aligned r) h, readOffset_regOffset, readReg_setAccesses]

theorem step_write_register (hr : r ≠ .cmd) (h : s.hostAccesses = .regWrite (regOffset r) 32 v :: rest) :
    step s = .next (writeReg r v (s.setAccesses rest)) := by
  rw [step_regWrite (regOffset_aligned r) h, hostRegWrite_regOffset hr]

theorem step_write_readOnly (hr : r ∈ readOnlyRegs) (h : s.hostAccesses = .regWrite (regOffset r) 32 v :: rest) :
    step s = .next (s.setAccesses rest) := by
  rw [step_write_register (ne_cmd_of_mem_readOnlyRegs hr) h, writeReg_readOnly hr]

theorem step_write_cmd (h : s.hostAccesses = .regWrite (regOffset .cmd) 32 v :: rest) :
    step s = runCommand v (s.setAccesses rest) := by
  rw [step_regWrite (regOffset_aligned .cmd) h, hostRegWrite_cmd]

theorem step_read_reserved (halign : off.toNat % 4 = 0) (hoff : 0x48 ≤ off.toNat)
    (h : s.hostAccesses = .regRead off 32 :: rest) : step s = .next ((s.setAccesses rest).pushRead 0) := by
  rw [step_regRead halign h, readOffset_reserved _ hoff]

theorem step_write_reserved (halign : off.toNat % 4 = 0) (hoff : 0x48 ≤ off.toNat)
    (h : s.hostAccesses = .regWrite off 32 v :: rest) : step s = .next (s.setAccesses rest) := by
  rw [step_regWrite halign h, hostRegWrite_reserved hoff]

end Sys2Proof.Machine
end

section
namespace Sys2Proof.Proofs

open Sys2Proof Sys2Proof.Machine

/-- Settles O5: each list of the statement is the map of R23, or its RO or RW part, sent through the model's own offsets and values,
so each clause is the step lemma of its kind of register. -/
theorem registerAccessRules : Obligations.RegisterAccessRules := by
  intro s rest off v
  refine ⟨fun bits hbad => ⟨step_regWrite_refused hbad, step_regRead_refused hbad⟩, ?reads,
    fun halign hoff => ⟨step_read_reserved halign hoff, step_write_reserved halign hoff⟩, ?readOnly, ?readWrite, step_write_cmd⟩
  case reads =>
    show ∀ p ∈ registerMap.map (fun r => (regOffset r, readReg s r)), _
    exact List.forall_mem_map.mpr fun r _ => step_read_register r
  case readOnly =>
    show off ∈ readOnlyRegs.map regOffset → _
    intro hoff
    obtain ⟨r, hr, rfl⟩ := List.mem_map.mp hoff
    exact step_write_readOnly hr
  case readWrite =>
    show ∀ p ∈ readWriteRegs.map (fun r => (regOffset r, writeReg r v (s.setAccesses rest))), _
    exact List.forall_mem_map.mpr fun r hr => step_write_register (ne_cmd_of_mem_readWriteRegs hr)

end Sys2Proof.Proofs
end

section
/-! The region checks (20_memory.md R57 to R59): what each answers in each of its cases, beside the laws of when it passes. -/
namespace Sys2Proof.Machine

variable {s : State} {n : Nat}

/-! ## The source and destination checks -/

theorem srcError_of_short (h : s.srcLen.toNat < n) : srcError s n = some .truncatedData := if_pos h

theorem srcError_of_wrap (hlen : n ≤ s.srcLen.toNat) (hwrap : s.srcAddr.toNat + n > 2 ^ 32) :
    srcError s n = some .badRegion := by
  rw [srcError, if_neg (Nat.not_lt.mpr hlen), if_pos hwrap]

/-- An empty source region never fails: an address register holds at most 2^32 - 1. -/
theorem srcError_zero (s : State) : srcError s 0 = none :=
  (srcError_eq_none_iff s 0).mpr ⟨Nat.zero_le _, s.srcAddr.isLt.le⟩

theorem dstError_of_short (h : s.dstLen.toNat < n) : dstError s n = some .outputTooSmall := if_pos h

theorem dstError_of_wrap (hlen : n ≤ s.dstLen.toNat) (hwrap : s.dstAddr.toNat + n > 2 ^ 32) :
    dstError s n = some .badRegion := by
  rw [dstError, if_neg (Nat.not_lt.mpr hlen), if_pos hwrap]

/-- An empty destination region never fails: an address register holds at most 2^32 - 1. -/
theorem dstError_zero (s : State) : dstError s 0 = none :=
  (dstError_eq_none_iff s 0).mpr ⟨Nat.zero_le _, s.dstAddr.isLt.le⟩

/-! ## The overlap check -/

/-- Two address ranges share a byte exactly when both are non-empty and each begins below the other's end; the byte they then
share is the larger of the two first addresses. -/
theorem exists_shared_byte_iff (a m b n : Nat) :
    (∃ x, (a ≤ x ∧ x < a + m) ∧ b ≤ x ∧ x < b + n) ↔ m > 0 ∧ n > 0 ∧ a < b + n ∧ b < a + m := by
  constructor
  · rintro ⟨x, ⟨ha, hm⟩, hb, hn⟩
    omega
  · rintro ⟨hm, hn, hab, hba⟩
    exact ⟨max a b, ⟨le_max_left a b, max_lt (by omega) hba⟩, le_max_right a b, max_lt hab (by omega)⟩

theorem overlapError_eq_badRegion_iff (s : State) (ns nd : Nat) :
    overlapError s ns nd = some .badRegion ↔
      ns > 0 ∧ nd > 0 ∧ s.srcAddr.toNat < s.dstAddr.toNat + nd ∧ s.dstAddr.toNat < s.srcAddr.toNat + ns := by
  constructor
  · intro hfails
    by_contra hapart
    rw [overlapError, if_neg hapart] at hfails
    cases hfails
  · exact fun hshare => if_pos hshare

/-- The overlap check reports no other error. -/
theorem overlapError_badRegion_or_none (s : State) (ns nd : Nat) :
    overlapError s ns nd = some .badRegion ∨ overlapError s ns nd = none := ite_eq_or_eq _ _ _

end Sys2Proof.Machine
end

section
namespace Sys2Proof.Proofs

open Sys2Proof Sys2Proof.Machine

/-- Settles O12: the check fails by the rule's inequalities, and those hold exactly when the two regions share a byte. -/
theorem overlapCheckFindsSharedBytes : Obligations.OverlapCheckFindsSharedBytes := by
  intro s ns nd
  have hfails := overlapError_eq_badRegion_iff s ns nd
  refine ⟨hfails, overlapError_badRegion_or_none s ns nd, hfails.trans (exists_shared_byte_iff _ _ _ _).symm, fun hsrc hdst => ?_⟩
  obtain ⟨-, hsrcEnd⟩ := (srcError_eq_none_iff s ns).mp hsrc
  obtain ⟨-, hdstEnd⟩ := (dstError_eq_none_iff s nd).mp hdst
  exact ⟨hsrcEnd, hdstEnd⟩

/-- Settles O10: one clause for each answer of the check, and the empty region. -/
theorem sourceCheckRule : Obligations.SourceCheckRule := fun s n =>
  ⟨srcError_of_short, srcError_of_wrap, fun hlen hend => (srcError_eq_none_iff s n).mpr ⟨hlen, hend⟩, srcError_zero s⟩

/-- Settles O11: one clause for each answer of the check, and the empty region. -/
theorem destinationCheckRule : Obligations.DestinationCheckRule := fun s n =>
  ⟨dstError_of_short, dstError_of_wrap, fun hlen hend => (dstError_eq_none_iff s n).mpr ⟨hlen, hend⟩, dstError_zero s⟩

end Sys2Proof.Proofs
end

section
/-! The command word (30_encoding.md R70 to R75): its three fields, what each branch of `decode` answers, and `decode` as the inverse
of `encode`. -/
namespace Sys2Proof

variable {w : Word} {op : BitVec 8} {fmt : BitVec 3} {i : Instr}

/-! ## The fields of a word -/

/-- A command word is its three fields and nothing else (R70). -/
theorem rsv_append_fmt_append_op (w : Word) : cmdRsv w ++ (cmdFmt w ++ cmdOp w) = w := by
  rw [cmdRsv, cmdFmt, cmdOp, BitVec.extractLsb'_append_extractLsb'_eq_extractLsb' (by rfl),
    BitVec.extractLsb'_append_extractLsb'_eq_extractLsb' (by rfl)]
  exact BitVec.extractLsb'_eq_self

@[simp] theorem cmdRsv_encode (i : Instr) : cmdRsv (encode i) = 0 := by cases i <;> rfl

@[simp] theorem cmdFmt_encode (i : Instr) : cmdFmt (encode i) = i.fmtField := by cases i <;> rfl

@[simp] theorem cmdOp_encode (i : Instr) : cmdOp (encode i) = i.op := by cases i <;> rfl

theorem eq_encode_iff : w = encode i ↔ cmdRsv w = 0 ∧ cmdFmt w = i.fmtField ∧ cmdOp w = i.op := by
  constructor
  · rintro rfl
    exact ⟨cmdRsv_encode i, cmdFmt_encode i, cmdOp_encode i⟩
  · rintro ⟨hrsv, hfmt, hop⟩
    rw [← rsv_append_fmt_append_op w, hrsv, hfmt, hop]
    rfl

/-! ## The rows of the opcode map -/

/-- FMT is used by CANVAS only (R71). -/
theorem fmtField_eq_zero_iff (i : Instr) : i.fmtField = 0 ↔ i.op ≠ 0x03 := by cases i <;> decide

/-- The twelve opcodes of R73. -/
def opcodes : List (BitVec 8) := [0x01, 0x02, 0x03, 0x04, 0x05, 0x06, 0x10, 0x11, 0x12, 0x18, 0x19, 0x1A]

/-- The commands in the order of the opcode map (R73). -/
def commands : List Instr :=
  [.parseHdr, .resolveFmt, .canvasGray, .canvasRgb, .canvasRgba, .canvasBgra, .canvasDxt1, .canvasDxt3, .canvasDxt5, .log2,
    .swzOffset, .deswizzle, .dxt1Block, .dxt3Block, .dxt5Block, .dxt1Surface, .dxt3Surface, .dxt5Surface]

theorem mem_commands (i : Instr) : i ∈ commands := by cases i <;> decide

theorem op_mem_opcodes (i : Instr) : i.op ∈ opcodes := by cases i <;> decide

theorem exists_command_of_mem_opcodes : ∀ op ∈ opcodes, ∃ i ∈ commands, i.op = op := by decide

/-- Every format code but 0 is a CANVAS row (R71). -/
theorem exists_canvas_of_fmt_ne_zero : ∀ fmt : BitVec 3, fmt ≠ 0 → ∃ i ∈ commands, i.op = 0x03 ∧ i.fmtField = fmt := by decide

/-- The command words beside their commands are the graph of `encode`. -/
theorem mem_map_encode_commands_iff : (w, i) ∈ commands.map (fun j => (encode j, j)) ↔ w = encode i := by
  constructor
  · intro hmem
    obtain ⟨j, -, hj⟩ := List.mem_map.mp hmem
    obtain ⟨rfl, rfl⟩ := Prod.mk.inj hj
    rfl
  · rintro rfl
    exact List.mem_map_of_mem (mem_commands i)

/-! ## The two tables of the decoder -/

theorem decodeCanvas_eq_ok_iff : decodeCanvas fmt = .ok i ↔ i.op = 0x03 ∧ i.fmtField = fmt := by
  constructor
  · intro h
    unfold decodeCanvas at h
    split at h <;> cases h <;> exact ⟨rfl, rfl⟩
  · rintro ⟨hop, rfl⟩
    revert hop
    cases i <;> decide

theorem decodeOp_eq_ok_iff : decodeOp op = .ok i ↔ op ≠ 0x03 ∧ i.op = op := by
  constructor
  · intro h
    unfold decodeOp at h
    split at h <;> cases h <;> exact ⟨by decide, rfl⟩
  · rintro ⟨hop, rfl⟩
    revert hop
    cases i <;> decide

theorem decodeCanvas_error_iff : (∃ r, decodeCanvas fmt = .error r) ↔ fmt = 0 := by
  constructor
  · rintro ⟨r, h⟩
    by_contra hfmt
    obtain ⟨i, -, hi⟩ := exists_canvas_of_fmt_ne_zero fmt hfmt
    rw [decodeCanvas_eq_ok_iff.mpr hi] at h
    cases h
  · rintro rfl
    exact ⟨_, rfl⟩

theorem decodeOp_error_iff (hcanvas : op ≠ 0x03) : (∃ r, decodeOp op = .error r) ↔ op ∉ opcodes := by
  constructor
  · rintro ⟨r, h⟩ hmem
    obtain ⟨i, -, hi⟩ := exists_command_of_mem_opcodes op hmem
    rw [decodeOp_eq_ok_iff.mpr ⟨hcanvas, hi⟩] at h
    cases h
  · intro hmem
    cases h : decodeOp op with
    | error r => exact ⟨r, rfl⟩
    | ok i => exact absurd ((decodeOp_eq_ok_iff.mp h).2 ▸ op_mem_opcodes i) hmem

/-! ## The branches of the decoder -/

theorem decode_of_rsv_ne_zero (hrsv : cmdRsv w ≠ 0) : decode w = .error .reservedBits := if_pos hrsv

theorem decode_of_canvas (hrsv : cmdRsv w = 0) (hop : cmdOp w = 0x03) : decode w = decodeCanvas (cmdFmt w) := by
  rw [decode, if_neg (not_not.mpr hrsv), if_pos hop]

theorem decode_of_stray_fmt (hrsv : cmdRsv w = 0) (hop : cmdOp w ≠ 0x03) (hfmt : cmdFmt w ≠ 0) :
    ∃ r, decode w = .error r := by
  rw [decode, if_neg (not_not.mpr hrsv), if_neg hop, if_pos hfmt]
  cases h : decodeOp (cmdOp w) with
  | ok i => exact ⟨.strayFormat, rfl⟩
  | error r => exact ⟨r, rfl⟩

theorem decode_of_fmt_zero (hrsv : cmdRsv w = 0) (hop : cmdOp w ≠ 0x03) (hfmt : cmdFmt w = 0) :
    decode w = decodeOp (cmdOp w) := by
  rw [decode, if_neg (not_not.mpr hrsv), if_neg hop, if_neg (not_not.mpr hfmt)]

/-! ## Decoding undoes encoding -/

/-- A word decodes to an instruction exactly when it is that instruction's word (R75). -/
theorem decode_eq_ok_iff : decode w = .ok i ↔ w = encode i := by
  rw [eq_encode_iff]
  by_cases hrsv : cmdRsv w = 0
  case neg =>
    rw [decode_of_rsv_ne_zero hrsv]
    exact iff_of_false nofun fun hw => hrsv hw.1
  by_cases hop : cmdOp w = 0x03
  case pos =>
    rw [decode_of_canvas hrsv hop, decodeCanvas_eq_ok_iff, hop]
    grind
  by_cases hfmt : cmdFmt w = 0
  case pos =>
    rw [decode_of_fmt_zero hrsv hop hfmt, decodeOp_eq_ok_iff, hfmt]
    grind [fmtField_eq_zero_iff]
  case neg =>
    obtain ⟨r, hr⟩ := decode_of_stray_fmt hrsv hop hfmt
    grind [fmtField_eq_zero_iff]

@[simp] theorem decode_encode (i : Instr) : decode (encode i) = .ok i := decode_eq_ok_iff.mpr rfl

theorem encode_injective : Function.Injective encode := fun i j h => by
  have hok : (.ok i : Except IllegalWord Instr) = .ok j := by rw [← decode_encode i, h, decode_encode]
  exact Except.ok.inj hok

theorem Instr.wf_eq_true (i : Instr) : i.wf = true := by cases i <;> rfl

/-! ## The illegal words -/

theorem decode_eq_error_of_error {r : IllegalWord} (h : decode w = .error r) (j : Instr) : w ≠ encode j := by
  intro hw
  rw [decode_eq_ok_iff.mpr hw] at h
  cases h

/-- The four cases of R74. -/
theorem decode_error_iff :
    (∃ r, decode w = .error r) ↔
      cmdOp w ∉ opcodes ∨ cmdRsv w ≠ 0 ∨ (cmdOp w ≠ 0x03 ∧ cmdFmt w ≠ 0) ∨ (cmdOp w = 0x03 ∧ cmdFmt w = 0) := by
  by_cases hrsv : cmdRsv w = 0
  case neg => exact iff_of_true ⟨_, decode_of_rsv_ne_zero hrsv⟩ (.inr (.inl hrsv))
  by_cases hop : cmdOp w = 0x03
  case pos =>
    have hmem : cmdOp w ∈ opcodes := hop ▸ by decide
    rw [decode_of_canvas hrsv hop, decodeCanvas_error_iff]
    grind
  by_cases hfmt : cmdFmt w = 0
  case pos =>
    rw [decode_of_fmt_zero hrsv hop hfmt, decodeOp_error_iff hop]
    grind
  case neg => exact iff_of_true (decode_of_stray_fmt hrsv hop hfmt) (.inr (.inr (.inl ⟨hop, hfmt⟩)))

end Sys2Proof

namespace Sys2Proof.Machine

/-- An illegal word reads no operand and no memory, and writes STATUS only (R74). -/
theorem runCommand_of_illegal {w : Word} (h : ∃ r, decode w = .error r) (s : State) :
    runCommand w s = .next { s with status := statusWord 4 (cmdOp w) } := by
  obtain ⟨r, hr⟩ := h
  rw [runCommand, hr]
  rfl

end Sys2Proof.Machine
end

section
namespace Sys2Proof.Proofs

open Sys2Proof Sys2Proof.Machine

/-- Settles O1: all of it follows from `decode w = .ok i ↔ w = encode i`, the listed pairs being the graph of `encode`. -/
theorem decodeSelectsExactlyTheLegalWords : Obligations.DecodeSelectsExactlyTheLegalWords := by
  refine ⟨fun i => ⟨decode_encode i, i.wf_eq_true⟩, fun w => ?_,
    fun w i => decode_eq_ok_iff.trans mem_map_encode_commands_iff.symm⟩
  cases h : decode w with
  | ok i =>
    have hw : w = encode i := decode_eq_ok_iff.mp h
    exact .inl ⟨i, rfl, hw, fun j hj => encode_injective (hj.symm.trans hw)⟩
  | error r => exact .inr ⟨⟨r, rfl⟩, decode_eq_error_of_error h⟩

/-- Settles O2: the four cases are the branches of the decoder, and the step is the write to CMD of a word that no instruction has. -/
theorem illegalWordsCompleteWithIllegalCommand : Obligations.IllegalWordsCompleteWithIllegalCommand := by
  refine fun w => ⟨decode_error_iff, fun s rest hillegal hwrite => ?_⟩
  rw [step_write_cmd hwrite, runCommand_of_illegal hillegal]
  rfl

end Sys2Proof.Proofs
end

section
/-! The texture header in memory (40_header_format.md R100): its little-endian fields as the bytes at SRC_ADDR, and what PARSE_HDR (R104)
answers in each of its cases. -/
namespace Sys2Proof.Machine

variable {s : State} {op : Byte} {h : Header} {f : Format}

/-! ## Little-endian fields (20_memory.md R51) -/

theorem toNat_append_eq_add {m n : Nat} (x : BitVec m) (y : BitVec n) : (x ++ y).toNat = x.toNat * 2 ^ n + y.toNat := by
  rw [BitVec.toNat_append, ← Nat.shiftLeft_add_eq_or_of_lt y.isLt, Nat.shiftLeft_eq]

theorem ofNat_le_half (b₀ b₁ : Byte) : BitVec.ofNat 16 (le [b₀, b₁]) = b₁ ++ b₀ := by
  apply BitVec.eq_of_toNat_eq
  simp only [BitVec.toNat_ofNat, toNat_append_eq_add, le]
  omega

theorem ofNat_le_word (b₀ b₁ b₂ b₃ : Byte) : BitVec.ofNat 32 (le [b₀, b₁, b₂, b₃]) = b₃ ++ (b₂ ++ (b₁ ++ b₀)) := by
  apply BitVec.eq_of_toNat_eq
  simp only [BitVec.toNat_ofNat, toNat_append_eq_add, le]
  omega

/-- A part of a snapshot is the snapshot of that part. -/
theorem slice_readBytes (m : Memory) (a : Nat) {lo n len : Nat} (hin : lo + n ≤ len) :
    slice (m.readBytes a len) lo n = m.readBytes (a + lo) n := by
  apply List.ext_getElem
  · simp [slice]
    omega
  · intro k hk _
    simp [slice, Memory.readBytes, Nat.add_assoc]

theorem half_of_source {lo len : Nat} (s : State) (hin : lo + 2 ≤ len) :
    BitVec.ofNat 16 (le (slice (s.source len) lo 2)) =
      s.mem.read (s.srcAddr.toNat + (lo + 1)) ++ s.mem.read (s.srcAddr.toNat + lo) := by
  rw [State.source, slice_readBytes _ _ hin]
  exact ofNat_le_half _ _

theorem word_of_source {lo len : Nat} (s : State) (hin : lo + 4 ≤ len) :
    BitVec.ofNat 32 (le (slice (s.source len) lo 4)) =
      s.mem.read (s.srcAddr.toNat + (lo + 3)) ++ (s.mem.read (s.srcAddr.toNat + (lo + 2)) ++
        (s.mem.read (s.srcAddr.toNat + (lo + 1)) ++ s.mem.read (s.srcAddr.toNat + lo))) := by
  rw [State.source, slice_readBytes _ _ hin]
  exact ofNat_le_word _ _ _ _

/-- The header with the bytes `b` (R100). -/
def headerOfBytes (b : Nat → Byte) : Header where
  dsize := b 3 ++ (b 2 ++ (b 1 ++ b 0))
  unk := b 7 ++ (b 6 ++ (b 5 ++ b 4))
  width := b 9 ++ b 8
  height := b 11 ++ b 10
  enc := b 12
  sub := b 13

/-- The header that PARSE_HDR reads is that of the bytes at SRC_ADDR. -/
theorem parseHeader_source (s : State) :
    parseHeader (s.source 128) = headerOfBytes fun k => s.mem.read (s.srcAddr.toNat + k) := by
  have hbyte (k : Nat) (hk : k < 128) : (s.source 128).getD k 0 = s.mem.read (s.srcAddr.toNat + k) :=
    Memory.readBytes_getD _ _ _ _ _ hk
  rw [parseHeader, word_of_source s (by decide), word_of_source s (by decide), half_of_source s (by decide),
    half_of_source s (by decide), hbyte 12 (by decide), hbyte 13 (by decide)]
  rfl

/-! ## The cases of PARSE_HDR, in check order -/

theorem dimError_of_large {w ht : Nat} (hlarge : w ≥ 0x8000 ∨ ht ≥ 0x8000) : dimError w ht = some .invalidDimensions :=
  if_pos hlarge

theorem execParseHdr_of_srcError {e : CmdError} (herr : srcError s 128 = some e) :
    execParseHdr s = .next (raiseError 0x01 e s) := by
  rw [execParseHdr, herr]
  rfl

theorem execParseHdr_of_unadmitted (hsrc : srcError s 128 = none) (hstuck : ¬admitted s 128 0 = true) :
    execParseHdr s = .fault .stuckUnadmitted := by
  rw [execParseHdr, hsrc]
  exact if_neg hstuck

theorem execParseHdr_of_admitted (hsrc : srcError s 128 = none) (hadm : admitted s 128 0 = true) :
    execParseHdr s = .next (finishParse 0x01 (headerOfBytes fun k => s.mem.read (s.srcAddr.toNat + k)) s) := by
  rw [execParseHdr, hsrc, ← parseHeader_source]
  exact if_pos hadm

theorem finishParse_of_large (hlarge : h.width.toNat ≥ 0x8000 ∨ h.height.toNat ≥ 0x8000) :
    finishParse op h s = raiseError op .invalidDimensions s := by
  rw [finishParse, dimError_of_large hlarge]

theorem finishParse_of_unresolved (hw : h.width.toNat < 0x8000) (hht : h.height.toNat < 0x8000)
    (hfmt : resolve s.cfg h.enc (headerCompressed h) = none) :
    finishParse op h s = raiseError op .unsupportedEncoding s := by
  rw [finishParse, (dimError_eq_none_iff _ _).mpr ⟨hw, hht⟩, hfmt]

theorem finishParse_of_resolved (hw : h.width.toNat < 0x8000) (hht : h.height.toNat < 0x8000)
    (hfmt : resolve s.cfg h.enc (headerCompressed h) = some f) :
    finishParse op h s = finish op (commitHeader h f s) := by
  rw [finishParse, (dimError_eq_none_iff _ _).mpr ⟨hw, hht⟩, hfmt]

end Sys2Proof.Machine
end

section
namespace Sys2Proof.Proofs

open Sys2Proof Sys2Proof.Machine

/-- Settles O26: one clause for each case of PARSE_HDR, in check order, at the header that the bytes at SRC_ADDR make. -/
theorem parseHdrResults : Obligations.ParseHdrResults := by
  refine ⟨decode_parseHdr, fun s b hb => ?_⟩
  obtain rfl : b = fun k => s.mem.read (s.srcAddr.toNat + k) := funext hb
  refine ⟨fun hshort => execParseHdr_of_srcError (e := .truncatedData) (srcError_of_short hshort),
    fun hlen hwrap => execParseHdr_of_srcError (e := .badRegion) (srcError_of_wrap hlen hwrap), fun hlen hend => ?_⟩
  have hsrc : srcError s 128 = none := (srcError_eq_none_iff s 128).mpr ⟨hlen, hend⟩
  have hadmit := admitted_iff_regionsAdmitted s 128 0
  refine ⟨fun hstuck => execParseHdr_of_unadmitted hsrc (mt hadmit.mp hstuck), fun hready => ?_⟩
  have hparse := execParseHdr_of_admitted hsrc (hadmit.mpr hready)
  exact ⟨fun hlarge => hparse.trans (congrArg _ (finishParse_of_large hlarge)), fun hw hht =>
    ⟨fun hfmt => hparse.trans (congrArg _ (finishParse_of_unresolved hw hht hfmt)),
      fun f hfmt => hparse.trans (congrArg _ (finishParse_of_resolved hw hht hfmt))⟩⟩

end Sys2Proof.Proofs
end

section
/-! The format resolver (40_header_format.md R103) and RESOLVE_FMT (R105). -/
namespace Sys2Proof.Machine

variable {c : Config} {enc : Byte} {comp : Bool} {f : Format} {s : State}

/-- The six rows of the resolver's table (R103): format, encoding byte, compressed flag. -/
def resolverRows (c : Config) : List (Format × Byte × Bool) :=
  [(.gray, c.encGray, false), (.rgb, c.encRgb, false), (.rgba, c.encRgba, false), (.bgra, c.encBgra, false),
    (.dxt1, c.encRgb, true), (.dxt5, c.encRgba, true)]

theorem mem_rows_of_resolve (h : resolve c enc comp = some f) : (f, enc, comp) ∈ resolverRows c := by
  unfold resolve at h
  split_ifs at h with hrow hrow hrow hrow hrow hrow <;> obtain ⟨rfl, rfl⟩ := hrow <;> cases h <;> simp [resolverRows]

/-- The encoding values are pairwise distinct, so no earlier row takes a later row's pair. -/
theorem resolve_of_mem_rows (hc : c.encDistinct = true) (h : (f, enc, comp) ∈ resolverRows c) :
    resolve c enc comp = some f := by
  simp only [Config.encDistinct, Bool.and_eq_true, bne_iff_ne] at hc
  simp only [resolverRows, List.mem_cons, Prod.mk.injEq, List.not_mem_nil, or_false] at h
  rcases h with ⟨rfl, rfl, rfl⟩ | ⟨rfl, rfl, rfl⟩ | ⟨rfl, rfl, rfl⟩ | ⟨rfl, rfl, rfl⟩ | ⟨rfl, rfl, rfl⟩ | ⟨rfl, rfl, rfl⟩ <;>
    grind [resolve]

theorem resolve_eq_some_iff (hc : c.encDistinct = true) : resolve c enc comp = some f ↔ (f, enc, comp) ∈ resolverRows c :=
  ⟨mem_rows_of_resolve, resolve_of_mem_rows hc⟩

/-- The encoding bytes that the table has for each value of the flag. -/
theorem exists_row_iff :
    (∃ f, (f, enc, comp) ∈ resolverRows c) ↔
      enc ∈ if comp then [c.encRgb, c.encRgba] else [c.encGray, c.encRgb, c.encRgba, c.encBgra] := by
  cases comp <;> simp [resolverRows, exists_or]

theorem resolve_eq_none_iff (hc : c.encDistinct = true) :
    resolve c enc comp = none ↔
      enc ∉ [c.encGray, c.encRgb, c.encRgba, c.encBgra] ∨ (comp = true ∧ enc ∉ [c.encRgb, c.encRgba]) := by
  have hrows : resolve c enc comp = none ↔ ¬∃ f, (f, enc, comp) ∈ resolverRows c := by
    simp only [Option.eq_none_iff_forall_ne_some, ne_eq, resolve_eq_some_iff hc, not_exists]
  rw [hrows, exists_row_iff]
  cases comp with
  | false => simp
  | true =>
    have hsub : enc ∈ [c.encRgb, c.encRgba] → enc ∈ [c.encGray, c.encRgb, c.encRgba, c.encBgra] := by grind
    exact ⟨fun hout => .inr ⟨rfl, hout⟩, fun hout => hout.elim (mt hsub) And.right⟩

theorem resolve_ne_dxt3 (c : Config) (enc : Byte) (comp : Bool) : resolve c enc comp ≠ some .dxt3 := fun h => by
  simpa [resolverRows] using mem_rows_of_resolve h

/-! ## RESOLVE_FMT -/

theorem execResolveFmt_of_resolved (h : resolve s.cfg s.opaEncoding s.opaCompressed = some f) :
    execResolveFmt s = .next (finish 0x02 (s.setFmt (fmtValue f))) := by
  rw [execResolveFmt, admitted_zero, if_pos rfl, h]
  rfl

theorem execResolveFmt_of_unresolved (h : resolve s.cfg s.opaEncoding s.opaCompressed = none) :
    execResolveFmt s = .next (raiseError 0x02 .unsupportedEncoding s) := by
  rw [execResolveFmt, admitted_zero, if_pos rfl, h]
  rfl

end Sys2Proof.Machine
end

section
namespace Sys2Proof.Proofs

open Sys2Proof Sys2Proof.Machine

/-- Settles O25: the resolver is the table of its six rows, and the other two clauses are read off the rows. -/
theorem resolverTable : Obligations.ResolverTable := fun c enc comp hc =>
  ⟨fun _ => resolve_eq_some_iff hc, resolve_eq_none_iff hc, resolve_ne_dxt3 c enc comp⟩

/-- Settles O27: one clause for each answer of the resolver. -/
theorem resolveFmtResults : Obligations.ResolveFmtResults :=
  ⟨decode_resolveFmt, fun _ => ⟨fun _ => execResolveFmt_of_resolved, execResolveFmt_of_unresolved⟩⟩

end Sys2Proof.Proofs
end

section
/-! The quantizer (40_header_format.md R111): the CANVAS word of each format, and what CANVAS answers. -/
namespace Sys2Proof.Machine

variable {s : State}

/-- The formats in the order of their codes (10_state.md R36). -/
def formats : List Format := [.gray, .rgb, .rgba, .bgra, .dxt1, .dxt3, .dxt5]

/-- The CANVAS instruction of a format (30_encoding.md R71). -/
def canvasInstr : Format → Instr
  | .gray => .canvasGray
  | .rgb => .canvasRgb
  | .rgba => .canvasRgba
  | .bgra => .canvasBgra
  | .dxt1 => .canvasDxt1
  | .dxt3 => .canvasDxt3
  | .dxt5 => .canvasDxt5

theorem exec_canvasInstr (f : Format) (s : State) : exec (canvasInstr f) s = canvasCommand 0x03 f s := by cases f <;> rfl

/-- Opcode 3 with the format's code in the FMT field (30_encoding.md R70). -/
theorem encode_canvasInstr (f : Format) : encode (canvasInstr f) = 0x00000003 ||| ((formatCode f).zeroExtend 32 <<< 8) := by
  cases f <;> rfl

theorem canvasCommand_of_dimsLegal (op : Byte) (f : Format) (h : s.dimsLegal) :
    canvasCommand op f s = .next (finish op (s.setCanvas
      (BitVec.ofNat 16 (canvasSize s.height.toNat (formatQuant f)) ++ BitVec.ofNat 16 (canvasSize s.width.toNat (formatQuant f)))
      (BitVec.ofNat 32 (levelSize f s.width.toNat s.height.toNat)))) := by
  rw [canvasCommand, (dimError_eq_none_iff _ _).mpr h]
  exact if_pos (admitted_zero s)

theorem canvasCommand_of_not_dimsLegal (op : Byte) (f : Format) (h : ¬s.dimsLegal) :
    canvasCommand op f s = .next (raiseError op .invalidDimensions s) := by
  have hlarge : s.width.toNat ≥ 0x8000 ∨ s.height.toNat ≥ 0x8000 := by
    rwa [ge_iff_le, ge_iff_le, ← not_lt, ← not_lt, ← not_and_or]
  rw [canvasCommand, dimError_of_large hlarge]

end Sys2Proof.Machine
end

section
namespace Sys2Proof.Proofs

open Sys2Proof Sys2Proof.Machine

/-- Settles O28: both lists of the statement are the formats' list, sent through the words and through the rows of the format table. -/
theorem canvasResults : Obligations.CanvasResults := by
  constructor
  · show formats.map (fun f => (decode (0x00000003 ||| ((formatCode f).zeroExtend 32 <<< 8))).toOption) =
      formats.map (fun f => some (canvasInstr f))
    refine List.map_congr_left fun f _ => ?_
    rw [← encode_canvasInstr, decode_encode]
    rfl
  · show ∀ p ∈ formats.map (fun f => (canvasInstr f, formatQuant f, formatBpp f)), _
    refine List.forall_mem_map.mpr fun f _ s => ⟨fun hdims => ?_, fun hdims => ?_⟩
    · rw [exec_canvasInstr, canvasCommand_of_dimsLegal _ f hdims]
      rfl
    · rw [exec_canvasInstr, canvasCommand_of_not_dimsLegal _ f hdims]
      rfl

end Sys2Proof.Proofs
end

section
/-! The single-block commands (42_block_decompress.md R160 to R163): what they answer when their regions are ready, and each byte of
the 64 they write. -/
namespace Sys2Proof.Machine

variable {s : State} {k : BlockKind}

/-! ## The bytes of the 16 pixels -/

/-- Pieces of one length stand at its multiples. -/
theorem getElem?_flatMap_of_length_eq {α β : Type} {f : α → List β} {n c : Nat} (hf : ∀ x, (f x).length = n) (hc : c < n)
    (l : List α) (i : Nat) : (l.flatMap f)[n * i + c]? = l[i]?.bind fun x => (f x)[c]? := by
  induction l generalizing i with
  | nil => simp
  | cons x l ih =>
    rw [List.flatMap_cons]
    cases i with
    | zero => simp [List.getElem?_append_left, hf x, hc]
    | succ i =>
      have hpast : n * (i + 1) + c = (f x).length + (n * i + c) := by rw [hf]; ring
      rw [hpast, List.getElem?_append_right (Nat.le_add_right _ _), Nat.add_sub_cancel_left, ih, List.getElem?_cons_succ]

/-- Byte 4i + c of the output is byte c of pixel i (R163). -/
theorem blockOut_getD {i c : Nat} (k : BlockKind) (s : State) (d : Byte) (hi : i < 16) (hc : c < 4) :
    (blockOut k s).getD (4 * i + c) d =
      (pixelBytes s.cfg.outOrder
        ((decodeBlock s.cfg k (s.mem.readBytes s.srcAddr.toNat (blockBytes k))).getD i Pixel.clear)).getD c d := by
  have hlen : i < (decodeBlock s.cfg k (s.mem.readBytes s.srcAddr.toNat (blockBytes k))).length := by rwa [decodeBlock_length]
  rw [blockOut, State.source, List.getD_eq_getElem?_getD, getElem?_flatMap_of_length_eq (pixelBytes_length _) hc,
    List.getElem?_eq_getElem hlen, Option.bind_some, List.getD_eq_getElem _ _ hlen, List.getD_eq_getElem?_getD]

/-! ## The commands -/

/-- The kinds in the order of their opcodes (R159). -/
def blockKinds : List BlockKind := [.dxt1, .dxt3, .dxt5]

/-- The single-block instruction of a kind (R159). -/
def blockInstr : BlockKind → Instr
  | .dxt1 => .dxt1Block
  | .dxt3 => .dxt3Block
  | .dxt5 => .dxt5Block

theorem exec_blockInstr (k : BlockKind) (s : State) : exec (blockInstr k) s = blockCommand (blockInstr k).op k s := by
  cases k <;> rfl

theorem blockCommand_of_ready (op : Byte) (h : s.regionsReady (blockBytes k) 64) :
    blockCommand op k s =
      .next { s with mem := s.mem.writeBytes s.dstAddr.toNat (blockOut k s), status := statusWord 0 op } := by
  obtain ⟨hchecks, hadm⟩ := regionsReady_checks s _ _ h
  rw [blockCommand, hchecks]
  exact if_pos hadm

end Sys2Proof.Machine
end

section
namespace Sys2Proof.Proofs

open Sys2Proof Sys2Proof.Machine

/-- Settles O44: the rows of the statement are the kinds, each with its instruction; memory afterwards is one write of the pixels'
bytes, so a byte inside the 64 is read off the output and any other keeps its value. -/
theorem blockCommandsWriteSixteenPixels : Obligations.BlockCommandsWriteSixteenPixels := by
  refine ⟨fun p => ⟨rfl, rfl⟩, ?_⟩
  show ∀ p ∈ blockKinds.map (fun k => (blockInstr k, k, blockBytes k, (blockInstr k).op)), _
  refine List.forall_mem_map.mpr fun k _ s hready => ⟨_, (exec_blockInstr k s).trans (blockCommand_of_ready _ hready), ?_, ?_⟩
  · intro i c hi hc
    have hinside : s.dstAddr.toNat ≤ s.dstAddr.toNat + 4 * i + c ∧ s.dstAddr.toNat + 4 * i + c < s.dstAddr.toNat + 64 := by omega
    have hplace : s.dstAddr.toNat + 4 * i + c - s.dstAddr.toNat = 4 * i + c := by omega
    rw [Memory.read_writeBytes, blockOut_length, if_pos hinside, hplace]
    exact blockOut_getD k s unlistedByte hi hc
  · intro a hout
    rw [Memory.read_writeBytes, blockOut_length, if_neg hout]

end Sys2Proof.Proofs
end

section
/-! The order of checks (60_exceptions.md R203): every command, whichever it is, answers what one chain of tests answers. -/
namespace Sys2Proof.Machine

variable {op : Byte} {i : Instr} {s u t : State} {w : Word}

/-! ## Raising the error of a check -/

/-- A command that reports the error of a check, and goes on as `k` when the check passes. -/
def orRaise (op : Byte) (check : Option CmdError) (s : State) (k : Result) : Result :=
  match check with
  | some e => .next (raiseError op e s)
  | none => k

@[simp] theorem orRaise_none (op : Byte) (s : State) (k : Result) : orRaise op none s k = k := rfl

theorem orRaise_ite (op : Byte) (c : Prop) [Decidable c] (e : CmdError) (check : Option CmdError) (s : State) (k : Result) :
    orRaise op (if c then some e else check) s k = if c then .next (raiseError op e s) else orRaise op check s k := by
  split <;> rfl

theorem orRaise_firstError_nil (op : Byte) (s : State) (k : Result) : orRaise op (firstError []) s k = k := rfl

/-- Checks are made one after the other (20_memory.md R64). -/
theorem orRaise_firstError_cons (op : Byte) (c : Option CmdError) (l : List (Option CmdError)) (s : State) (k : Result) :
    orRaise op (firstError (c :: l)) s k = orRaise op c s (orRaise op (firstError l) s k) := by
  cases c <;> rfl

/-! ## The chain of R203 -/

/-- Steps 2 to 12 of R203 in order, for a command that answers `finish op u` when none of them holds. -/
def outcomeInOrder (op : Byte) (i : Instr) (s u : State) : Result :=
  let hdr := parseHeader (s.source 128)
  if readsDims i = true ∧ (s.width.toNat ≥ 0x8000 ∨ s.height.toNat ≥ 0x8000) then .next (raiseError op .invalidDimensions s)
  else if s.srcLen.toNat < srcNeed i s then .next (raiseError op .truncatedData s)
  else if s.srcAddr.toNat + srcNeed i s > 2 ^ 32 then .next (raiseError op .badRegion s)
  else if i = .parseHdr ∧ ¬s.regionsAdmitted 128 0 then .fault .stuckUnadmitted
  else if i = .parseHdr ∧ (hdr.width.toNat ≥ 0x8000 ∨ hdr.height.toNat ≥ 0x8000) then
    .next (raiseError op .invalidDimensions s)
  else if (i = .parseHdr ∧ resolve s.cfg hdr.enc (headerCompressed hdr) = none) ∨
      (i = .resolveFmt ∧ resolve s.cfg s.opaEncoding s.opaCompressed = none) then
    .next (raiseError op .unsupportedEncoding s)
  else if s.dstLen.toNat < dstNeed i s then .next (raiseError op .outputTooSmall s)
  else if s.dstAddr.toNat + dstNeed i s > 2 ^ 32 then .next (raiseError op .badRegion s)
  else if srcNeed i s > 0 ∧ dstNeed i s > 0 ∧ s.srcAddr.toNat < s.dstAddr.toNat + dstNeed i s ∧
      s.dstAddr.toNat < s.srcAddr.toNat + srcNeed i s then .next (raiseError op .badRegion s)
  else if i = .deswizzle ∧ s.cfg.swzNonpow2H = .refuse ∧ pow2 s.width.toNat = true ∧ pow2 (max s.height.toNat 1) = false then
    .refused .nonpow2Height
  else if ¬s.regionsAdmitted (srcNeed i s) (dstNeed i s) then .fault .stuckUnadmitted
  else .next (finish op u)

/-- The dimension check of the commands that read WIDTH and HEIGHT (R203 step 2). -/
def dimsError (i : Instr) (s : State) : Option CmdError :=
  if readsDims i = true then dimError s.width.toNat s.height.toNat else none

theorem deswizzleRefused_iff (s : State) :
    deswizzleRefused s = true ↔
      s.cfg.swzNonpow2H = .refuse ∧ pow2 s.width.toNat = true ∧ pow2 (max s.height.toNat 1) = false := by
  simp only [deswizzleRefused, Bool.and_eq_true, Bool.not_eq_true', beq_iff_eq]
  tauto

/-- An address lies in the address space, so an empty region does not wrap. -/
theorem not_addressSpace_lt_toNat (a : Word) : ¬4294967296 < a.toNat := Nat.not_lt.mpr a.isLt.le

/-- Without a header or an encoding to judge, the chain is the command's checks, the refusal and the admission of its bytes. -/
theorem outcomeInOrder_of_plain (op : Byte) (s u : State) (hparse : i ≠ .parseHdr) (hresolve : i ≠ .resolveFmt) :
    outcomeInOrder op i s u =
      orRaise op (firstError [dimsError i s, regionError s (srcNeed i s) (dstNeed i s)]) s
        (if i = .deswizzle ∧ deswizzleRefused s = true then .refused .nonpow2Height
        else if admitted s (srcNeed i s) (dstNeed i s) = true then .next (finish op u)
        else .fault .stuckUnadmitted) := by
  have hdims (k : Result) : orRaise op (dimsError i s) s k =
      if readsDims i = true ∧ (s.width.toNat ≥ 0x8000 ∨ s.height.toNat ≥ 0x8000) then
        .next (raiseError op .invalidDimensions s)
      else k := by
    cases hreads : readsDims i <;> simp [dimsError, dimError, hreads, orRaise_ite]
  simp only [orRaise_firstError_cons, orRaise_firstError_nil, hdims, regionError, srcError, dstError, overlapError, orRaise_ite,
    orRaise_none, deswizzleRefused_iff, admitted_iff_regionsAdmitted, outcomeInOrder, hparse, hresolve, false_and, or_self,
    if_false, ite_not]

/-- Without a region either, only the dimensions are checked. -/
theorem outcomeInOrder_of_no_region (op : Byte) (s u : State) (hparse : i ≠ .parseHdr) (hresolve : i ≠ .resolveFmt)
    (hdeswizzle : i ≠ .deswizzle) (hsrc : srcNeed i s = 0) (hdst : dstNeed i s = 0) :
    outcomeInOrder op i s u = orRaise op (dimsError i s) s (.next (finish op u)) := by
  have hregion : regionError s 0 0 = none :=
    (regionError_eq_none_iff s 0 0).mpr ⟨srcError_zero s, dstError_zero s, (overlapError_eq_none_iff s 0 0).mpr (.inl rfl)⟩
  rw [outcomeInOrder_of_plain op s u hparse hresolve, hsrc, hdst, hregion, admitted_zero, if_neg (fun h => hdeswizzle h.1),
    if_pos rfl, orRaise_firstError_cons]
  rfl

/-! ## Every command follows the chain -/

/-- The surface instruction of a kind (42_block_decompress.md R159). -/
def surfaceInstr : BlockKind → Instr
  | .dxt1 => .dxt1Surface
  | .dxt3 => .dxt3Surface
  | .dxt5 => .dxt5Surface

theorem exec_surfaceInstr (k : BlockKind) (s : State) : exec (surfaceInstr k) s = surfaceCommand (surfaceInstr k).op k s := by
  cases k <;> rfl

theorem exec_canvasInstr_in_order (f : Format) (s : State) :
    ∃ u, exec (canvasInstr f) s = outcomeInOrder (canvasInstr f).op (canvasInstr f) s u := by
  refine ⟨s.setCanvas (BitVec.ofNat 16 (canvasSize s.height.toNat (formatQuant f)) ++
    BitVec.ofNat 16 (canvasSize s.width.toNat (formatQuant f))) (BitVec.ofNat 32 (levelSize f s.width.toNat s.height.toNat)), ?_⟩
  rw [exec_canvasInstr, outcomeInOrder_of_no_region _ _ _ (by cases f <;> nofun) (by cases f <;> nofun) (by cases f <;> nofun)
    (by cases f <;> rfl) (by cases f <;> rfl), canvasCommand, admitted_zero]
  cases f <;> rfl

theorem execLog2_in_order (s : State) : ∃ u, exec .log2 s = outcomeInOrder (Instr.op .log2) .log2 s u := by
  refine ⟨s.setResult (BitVec.ofNat 32 (log2 s.opa)), ?_⟩
  rw [outcomeInOrder_of_no_region (i := .log2) _ _ _ nofun nofun nofun rfl rfl]
  exact execLog2_eq s

theorem execSwzOffset_in_order (s : State) : ∃ u, exec .swzOffset s = outcomeInOrder (Instr.op .swzOffset) .swzOffset s u := by
  refine ⟨s.setResult (BitVec.ofNat 32
    (interleave s.opa.toNat s.opb.toNat (budget s.width.toNat) (budget s.height.toNat))), ?_⟩
  rw [outcomeInOrder_of_no_region (i := .swzOffset) _ _ _ nofun nofun nofun rfl rfl, exec, execSwzOffset, admitted_zero]
  rfl

theorem execDeswizzle_in_order (s : State) : ∃ u, exec .deswizzle s = outcomeInOrder (Instr.op .deswizzle) .deswizzle s u := by
  refine ⟨s.setMem (s.mem.writeBytes s.dstAddr.toNat (deswizzleOut s)), ?_⟩
  rw [outcomeInOrder_of_plain (i := .deswizzle) _ _ _ nofun nofun]
  simp only [true_and]
  rfl

theorem exec_blockInstr_in_order (k : BlockKind) (s : State) :
    ∃ u, exec (blockInstr k) s = outcomeInOrder (blockInstr k).op (blockInstr k) s u := by
  refine ⟨s.setMem (s.mem.writeBytes s.dstAddr.toNat (blockOut k s)), ?_⟩
  rw [exec_blockInstr, outcomeInOrder_of_plain _ _ _ (by cases k <;> nofun) (by cases k <;> nofun), orRaise_firstError_cons,
    orRaise_firstError_cons, if_neg (by cases k <;> nofun)]
  cases k <;> rfl

theorem exec_surfaceInstr_in_order (k : BlockKind) (s : State) :
    ∃ u, exec (surfaceInstr k) s = outcomeInOrder (surfaceInstr k).op (surfaceInstr k) s u := by
  refine ⟨s.setMem (surfaceMem k s), ?_⟩
  rw [exec_surfaceInstr, outcomeInOrder_of_plain _ _ _ (by cases k <;> nofun) (by cases k <;> nofun),
    if_neg (by cases k <;> nofun)]
  cases k <;> rfl

/-- RESOLVE_FMT has no region, so step 7 alone can hold. -/
theorem execResolveFmt_in_order (s : State) : ∃ u, exec .resolveFmt s = outcomeInOrder (Instr.op .resolveFmt) .resolveFmt s u := by
  have hchain (u : State) : outcomeInOrder 0x02 .resolveFmt s u =
      if resolve s.cfg s.opaEncoding s.opaCompressed = none then .next (raiseError 0x02 .unsupportedEncoding s)
      else .next (finish 0x02 u) := by
    simp [outcomeInOrder, readsDims, srcNeed, dstNeed, not_addressSpace_lt_toNat]
  rcases execResolveFmt_cases s with ⟨hnone, hexec⟩ | ⟨f, hsome, hexec⟩
  · exact ⟨s, hexec.trans ((if_pos hnone).symm.trans (hchain _).symm)⟩
  · exact ⟨s.setFmt (fmtValue f), hexec.trans ((if_neg (by simp [hsome])).symm.trans (hchain _).symm)⟩

/-- Steps 6 and 7 of R203, then the commit. -/
theorem finishParse_in_order (op : Byte) (h : Header) (s : State) :
    ∃ u, finishParse op h s =
      if h.width.toNat ≥ 0x8000 ∨ h.height.toNat ≥ 0x8000 then raiseError op .invalidDimensions s
      else if resolve s.cfg h.enc (headerCompressed h) = none then raiseError op .unsupportedEncoding s
      else finish op u := by
  rcases finishParse_cases op h s with ⟨hlarge, hparse⟩ | ⟨hw, hht, hnone, hparse⟩ | ⟨f, hw, hht, hsome, hparse⟩
  · exact ⟨s, by rw [hparse, if_pos (by omega)]⟩
  · exact ⟨s, by rw [hparse, if_neg (by omega), if_pos hnone]⟩
  · exact ⟨commitHeader h f s, by rw [hparse, if_neg (by omega), if_neg (by simp [hsome])]⟩

/-- PARSE_HDR has no destination, and its one region is admitted before the header is judged, so steps 8 to 12 never hold. -/
theorem execParseHdr_in_order (s : State) : ∃ u, exec .parseHdr s = outcomeInOrder (Instr.op .parseHdr) .parseHdr s u := by
  obtain ⟨u, hparse⟩ := finishParse_in_order 0x01 (parseHeader (s.source 128)) s
  refine ⟨u, ?_⟩
  have hexec : exec .parseHdr s = orRaise 0x01 (srcError s 128) s
    (if admitted s 128 0 = true then .next (finishParse 0x01 (parseHeader (s.source 128)) s) else .fault .stuckUnadmitted) := rfl
  rw [hexec, hparse]
  simp only [outcomeInOrder, ← admitted_iff_regionsAdmitted]
  cases hadm : admitted s 128 0 <;>
    simp [srcError, orRaise_ite, hadm, readsDims, srcNeed, dstNeed, Instr.op, not_addressSpace_lt_toNat,
      apply_ite Host.Outcome.next]

/-- Every command answers what the chain of R203 answers. -/
theorem exec_in_order (i : Instr) (s : State) : ∃ u, exec i s = outcomeInOrder i.op i s u := by
  cases i with
  | parseHdr => exact execParseHdr_in_order s
  | resolveFmt => exact execResolveFmt_in_order s
  | canvasGray => exact exec_canvasInstr_in_order .gray s
  | canvasRgb => exact exec_canvasInstr_in_order .rgb s
  | canvasRgba => exact exec_canvasInstr_in_order .rgba s
  | canvasBgra => exact exec_canvasInstr_in_order .bgra s
  | canvasDxt1 => exact exec_canvasInstr_in_order .dxt1 s
  | canvasDxt3 => exact exec_canvasInstr_in_order .dxt3 s
  | canvasDxt5 => exact exec_canvasInstr_in_order .dxt5 s
  | log2 => exact execLog2_in_order s
  | swzOffset => exact execSwzOffset_in_order s
  | deswizzle => exact execDeswizzle_in_order s
  | dxt1Block => exact exec_blockInstr_in_order .dxt1 s
  | dxt3Block => exact exec_blockInstr_in_order .dxt3 s
  | dxt5Block => exact exec_blockInstr_in_order .dxt5 s
  | dxt1Surface => exact exec_surfaceInstr_in_order .dxt1 s
  | dxt3Surface => exact exec_surfaceInstr_in_order .dxt3 s
  | dxt5Surface => exact exec_surfaceInstr_in_order .dxt5 s

/-! ## The command a write to CMD performs -/

theorem runCommand_of_decode (h : decode w = .ok i) (s : State) : runCommand w s = exec i s := by
  rw [runCommand, h]

theorem runCommand_in_order (h : decode w = .ok i) (s : State) : ∃ u, runCommand w s = outcomeInOrder (cmdOp w) i s u := by
  obtain rfl := decode_eq_ok_iff.mp h
  rw [runCommand_of_decode h, cmdOp_encode]
  exact exec_in_order i s

/-- What an `if` answered, one of its branches did. -/
theorem of_ite_eq {c p : Prop} [Decidable c] {x k r : Result} (h : (if c then x else k) = r) (hthen : x = r → p)
    (helse : k = r → p) : p :=
  (ite_eq_or_eq c x k).elim (fun hx => hthen (hx.symm.trans h)) fun hk => helse (hk.symm.trans h)

/-- Of the chain's outcomes, only its error completions and its end are next states. -/
theorem outcomeInOrder_eq_next (h : outcomeInOrder op i s u = .next t) :
    (∃ e, t = raiseError op e s) ∨ t = finish op u := by
  have raised (e : CmdError) (he : (.next (raiseError op e s) : Result) = .next t) :
      (∃ e, t = raiseError op e s) ∨ t = finish op u := .inl ⟨e, (Host.Outcome.next.inj he).symm⟩
  exact of_ite_eq h (raised _) fun h => of_ite_eq h (raised _) fun h => of_ite_eq h (raised _) fun h =>
    of_ite_eq h nofun fun h => of_ite_eq h (raised _) fun h => of_ite_eq h (raised _) fun h =>
    of_ite_eq h (raised _) fun h => of_ite_eq h (raised _) fun h => of_ite_eq h (raised _) fun h =>
    of_ite_eq h nofun fun h => of_ite_eq h nofun fun h => .inr (Host.Outcome.next.inj h).symm

/-- A command that completes has raised an error on the state before it, or finished with ERR = 0 (60_exceptions.md R200). -/
theorem runCommand_eq_next (h : runCommand w s = .next t) :
    (∃ e, t = raiseError (cmdOp w) e s) ∨ ∃ u, t = finish (cmdOp w) u := by
  cases hdecode : decode w with
  | error r =>
    rw [runCommand_of_illegal ⟨r, hdecode⟩] at h
    exact .inl ⟨.illegalCommand, (Host.Outcome.next.inj h).symm⟩
  | ok i =>
    obtain ⟨u, hrun⟩ := runCommand_in_order hdecode s
    exact (outcomeInOrder_eq_next (hrun.symm.trans h)).imp_right fun ht => ⟨u, ht⟩

/-! ## The fields of STATUS after a completion -/

@[simp] theorem raiseError_err (op : Byte) (e : CmdError) (s : State) : (raiseError op e s).err = e.code := statusWord_err _ _

@[simp] theorem raiseError_lastOp (op : Byte) (e : CmdError) (s : State) : (raiseError op e s).lastOp = op := statusWord_lastOp _ _

@[simp] theorem raiseError_done (op : Byte) (e : CmdError) (s : State) : (raiseError op e s).done = true := statusWord_done _ _

@[simp] theorem raiseError_statusReserved (op : Byte) (e : CmdError) (s : State) : (raiseError op e s).statusReserved = 0 :=
  statusWord_reserved _ _

@[simp] theorem finish_err (op : Byte) (s : State) : (finish op s).err = 0 := statusWord_err _ _

/-! ## The first case of the statement is the first test of the chain -/

/-- A list of cases whose first is decided by an `if`: the case's outcome is the `if`'s, and the cases after it speak of the rest. -/
theorem firstCase_of_ite {c otherwise : Prop} [Decidable c] {r x k : Result} {rest : List (Prop × Prop)}
    (hr : r = if c then x else k) (hrest : r = k → firstCase otherwise rest) : firstCase otherwise ((c, r = x) :: rest) :=
  ⟨fun hc => hr.trans (if_pos hc), fun hc => hrest (hr.trans (if_neg hc))⟩

end Sys2Proof.Machine
end

section
namespace Sys2Proof.Proofs

open Sys2Proof Sys2Proof.Machine

/-- Settles O13: an illegal word is step 1; a legal word answers the chain of tests, whose eleven conditions are the listed cases. -/
theorem reportedOutcomeFollowsPriority : Obligations.ReportedOutcomeFollowsPriority := by
  intro w s reports hdr
  refine ⟨fun r hr => runCommand_of_illegal ⟨r, hr⟩ s, fun i hi => ?_⟩
  obtain ⟨u, hrun⟩ := runCommand_in_order hi s
  exact firstCase_of_ite hrun fun hrun => firstCase_of_ite hrun fun hrun => firstCase_of_ite hrun fun hrun =>
    firstCase_of_ite hrun fun hrun => firstCase_of_ite hrun fun hrun => firstCase_of_ite hrun fun hrun =>
    firstCase_of_ite hrun fun hrun => firstCase_of_ite hrun fun hrun => firstCase_of_ite hrun fun hrun =>
    firstCase_of_ite hrun fun hrun => firstCase_of_ite hrun fun hrun => ⟨_, hrun, rfl⟩

/-- Settles O14: a command that completes raised an error kind, or finished with ERR = 0. -/
theorem errorCompletionWritesOnlyStatus : Obligations.ErrorCompletionWritesOnlyStatus := by
  refine ⟨fun w s t hrun herr => ?_, rfl⟩
  rcases runCommand_eq_next hrun with ⟨e, rfl⟩ | ⟨u, rfl⟩
  · exact ⟨e, raiseError_eq _ _ _, raiseError_err _ _ _, raiseError_lastOp _ _ _, raiseError_done _ _ _,
      raiseError_statusReserved _ _ _⟩
  · exact absurd (finish_err _ _) herr

end Sys2Proof.Proofs
end

section
/-! The platform's reset (70_reset_and_hazards.md R230, R231): the step that performs it, and the registers it leaves. -/
namespace Sys2Proof.Machine

theorem step_reset {s : State} {rest : List HostAccess} (h : s.hostAccesses = .reset :: rest) :
    step s = .next (applyReset (s.setAccesses rest)) :=
  step_cons s _ rest h

/-- The start of the machine is itself a state that a reset leaves. -/
theorem applyReset_reset : applyReset State.reset = State.reset := rfl

theorem eq_applyReset_of_step_reset {s t : State} {rest : List HostAccess} (h : s.hostAccesses = .reset :: rest)
    (hstep : step s = .next t) : t = applyReset (s.setAccesses rest) :=
  Host.Outcome.next.inj (hstep.symm.trans (step_reset h))

@[simp] theorem applyReset_status (s : State) : (applyReset s).status = 0 := rfl

@[simp] theorem applyReset_fmt (s : State) : (applyReset s).fmt = 0 := rfl

@[simp] theorem applyReset_done (s : State) : (applyReset s).done = false := by simp [State.done]

@[simp] theorem applyReset_err (s : State) : (applyReset s).err = 0 := by simp [State.err]

end Sys2Proof.Machine
end

section
namespace Sys2Proof.Proofs

open Sys2Proof Sys2Proof.Machine

/-- Settles O6: the start and the state after the platform's step are both `applyReset` of some state, which takes every register from
`State.reset` and keeps none of that state's own. -/
theorem resetClearsEveryRegister : Obligations.ResetClearsEveryRegister := by
  intro t hreset
  obtain ⟨u, rfl⟩ : ∃ u, t = applyReset u := by
    rcases hreset with rfl | ⟨s, rest, haccess, hstep⟩
    · exact ⟨State.reset, applyReset_reset.symm⟩
    · exact ⟨s.setAccesses rest, eq_applyReset_of_step_reset haccess hstep⟩
  exact ⟨rfl, rfl, rfl, rfl, rfl, rfl, rfl, rfl, rfl, rfl, rfl, rfl, rfl, rfl, rfl, rfl, rfl, applyReset_done u, applyReset_err u,
    by simp⟩

end Sys2Proof.Proofs
end

section
/-! The log2 unit (41_swizzle.md R130): the fold sets every bit below the highest one, and the table then gives the floor logarithm. -/
namespace Sys2Proof.Machine

variable {v u : Word} {m w : Nat}

/-- Bit i of `u` is set exactly when `v` has a bit set among bits i to i + m - 1. -/
def Smeared (v u : Word) (m : Nat) : Prop := ∀ i, u.getLsbD i = true ↔ ∃ d < m, v.getLsbD (i + d) = true

theorem smeared_self (v : Word) : Smeared v v 1 := fun i => by simp

/-- One line of the fold doubles how far each bit reaches down. -/
theorem Smeared.or_shift (h : Smeared v u m) : Smeared v (u ||| (u >>> m)) (m + m) := by
  intro i
  rw [BitVec.getLsbD_or, BitVec.getLsbD_ushiftRight, Bool.or_eq_true, h i, h (m + i)]
  constructor
  · rintro (⟨d, hd, hbit⟩ | ⟨d, hd, hbit⟩)
    · exact ⟨d, by omega, hbit⟩
    · exact ⟨m + d, by omega, by rwa [show i + (m + d) = m + i + d by omega]⟩
  · rintro ⟨d, hd, hbit⟩
    by_cases hnear : d < m
    · exact .inl ⟨d, hnear, hbit⟩
    · exact .inr ⟨d - m, by omega, by rwa [show m + i + (d - m) = i + d by omega]⟩

theorem smeared_log2Fold (v : Word) : Smeared v (log2Fold v) 32 :=
  (smeared_self v).or_shift.or_shift.or_shift.or_shift.or_shift

theorem log2_toNat_lt (v : Word) : Nat.log2 v.toNat < 32 := by
  by_cases hv : v.toNat = 0
  · rw [hv]
    decide
  · exact (Nat.log2_lt hv).mpr v.isLt

theorem log2Fold_getLsbD (hv : v.toNat ≠ 0) (i : Nat) : (log2Fold v).getLsbD i = true ↔ i ≤ Nat.log2 v.toNat := by
  rw [smeared_log2Fold v i]
  constructor
  · rintro ⟨d, -, hbit⟩
    exact (Nat.le_add_right i d).trans ((Nat.le_log2 hv).mpr (Nat.ge_two_pow_of_testBit hbit))
  · intro hi
    refine ⟨Nat.log2 v.toNat - i, by have := log2_toNat_lt v; omega, ?_⟩
    rw [Nat.add_sub_cancel' hi]
    exact Nat.testBit_log2 hv

theorem log2Fold_eq (hv : v.toNat ≠ 0) : log2Fold v = BitVec.ofNat 32 (2 ^ (Nat.log2 v.toNat + 1) - 1) := by
  refine BitVec.eq_of_getLsbD_eq fun i hi => Bool.eq_iff_iff.mpr ?_
  rw [log2Fold_getLsbD hv, BitVec.getLsbD_ofNat, Nat.testBit_two_pow_sub_one]
  simp [hi]

/-- The table at the product of the folded value: its index differs for each of the 32 folded values, and it holds their logarithms. -/
theorem log2Table_of_folded :
    ∀ n < 32, log2Table.getD ((BitVec.ofNat 32 (2 ^ (n + 1) - 1) * 0x07C4ACDD) >>> 27).toNat 0 = n := by decide

/-- The log2 unit gives the floor logarithm, and 0 for 0 (R130). -/
theorem log2_eq (v : Word) : log2 v = Nat.log2 v.toNat := by
  by_cases hv : v.toNat = 0
  · obtain rfl : v = 0 := BitVec.eq_of_toNat_eq hv
    rfl
  · rw [log2, log2Fold_eq hv]
    exact log2Table_of_folded _ (log2_toNat_lt v)

/-! ## Budgets and powers of two (R133, R134) -/

theorem budget_eq (h : w < 2 ^ 32) : budget w = Nat.log2 (max w 1) := by
  have hfits : max w 1 < 2 ^ 32 := max_lt h (by decide)
  rw [budget, log2_eq, BitVec.toNat_ofNat, Nat.mod_eq_of_lt hfits]

theorem half_lt_word (v : Half) : v.toNat < 2 ^ 32 := v.isLt.trans (by decide)

theorem two_pow_log2_max_le (w : Nat) : 2 ^ Nat.log2 (max w 1) ≤ max w 1 := Nat.log2_self_le (by omega)

theorem log2_max_lt (h : w < 0x8000) : Nat.log2 (max w 1) < 15 := (Nat.log2_lt (by omega)).mpr (max_lt h (by decide))

theorem pow2_iff : pow2 w = true ↔ ∃ e, w = 2 ^ e := by
  have hpow : w.isPowerOfTwo ↔ w ≠ 0 ∧ (w &&& (w - 1)) = 0 := Nat.ne_zero_and_sub_one_eq_zero_iff_isPowerOfTwo.symm
  rw [← Nat.isPowerOfTwo, hpow, pow2, Bool.and_eq_true, decide_eq_true_iff, beq_iff_eq, ge_iff_le, Nat.one_le_iff_ne_zero]

theorem max_one_of_two_pow {e : Nat} (h : w = 2 ^ e) : max w 1 = w := max_eq_left (h ▸ Nat.one_le_two_pow)

end Sys2Proof.Machine
end

section
/-! The bit interleave (41_swizzle.md R132): its equations in arithmetic, where each bit comes from, and its inverse. -/
namespace Sys2Proof.Machine

variable {x y x' y' wb hb o : Nat}

/-! ## The loop in arithmetic -/

/-- The loop lays its bits above those already placed. -/
theorem interleaveLoop_eq_or (fuel x y wb hb pos off : Nat) :
    interleaveLoop fuel x y wb hb pos off = off ||| interleaveLoop fuel x y wb hb 0 0 <<< pos := by
  induction fuel generalizing x y wb hb pos off with
  | zero => simp [interleaveLoop]
  | succ fuel ih =>
    rw [interleaveLoop, interleaveLoop, ih, ih _ _ _ _ (if hb > 0 then _ else _)]
    by_cases hw : wb > 0 <;> by_cases hh : hb > 0 <;>
      simp only [hw, hh, if_true, if_false, Nat.shiftLeft_or_distrib, ← Nat.shiftLeft_add, Nat.or_assoc, Nat.zero_or,
        Nat.zero_add, Nat.shiftLeft_zero, Nat.add_assoc, Nat.add_comm pos]

theorem mod_two_pow_succ (x n : Nat) : x % 2 ^ (n + 1) = x % 2 + 2 * (x / 2 % 2 ^ n) := by rw [Nat.pow_succ', Nat.mod_mul]

/-- With both budgets open a round takes a bit of x, then one of y. -/
theorem interleave_succ_succ (x y wb hb : Nat) :
    interleave x y (wb + 1) (hb + 1) = x % 2 + 2 * (y % 2) + 4 * interleave (x / 2) (y / 2) wb hb := by
  have hround : interleave x y (wb + 1) (hb + 1) = (x % 2 ||| (y % 2) <<< 1) ||| interleave (x / 2) (y / 2) wb hb <<< 2 := by
    rw [interleave, Nat.succ_max_succ, interleaveLoop, interleaveLoop_eq_or]
    simp [interleave]
  have hx : x % 2 < 2 ^ 1 := Nat.mod_lt _ (by decide)
  rw [hround, Nat.or_comm (x % 2), ← Nat.shiftLeft_add_eq_or_of_lt hx, Nat.or_comm,
    ← Nat.shiftLeft_add_eq_or_of_lt (by rw [Nat.shiftLeft_eq]; omega), Nat.shiftLeft_eq, Nat.shiftLeft_eq]
  omega

/-- With the budget of y spent, the bits of x follow in order. -/
theorem interleave_zero_right (x y wb : Nat) : interleave x y wb 0 = x % 2 ^ wb := by
  induction wb generalizing x with
  | zero => simp [interleave, interleaveLoop, Nat.mod_one]
  | succ wb ih =>
    have hround : interleave x y (wb + 1) 0 = x % 2 ||| interleave (x / 2) y wb 0 <<< 1 := by
      rw [interleave, Nat.max_zero, interleaveLoop, interleaveLoop_eq_or]
      simp [interleave]
    rw [hround, ih, Nat.or_comm, ← Nat.shiftLeft_add_eq_or_of_lt (Nat.mod_lt _ (by decide)), Nat.shiftLeft_eq,
      mod_two_pow_succ x wb]
    omega

/-- With the budget of x spent, the bits of y follow in order. -/
theorem interleave_zero_left (x y hb : Nat) : interleave x y 0 hb = y % 2 ^ hb := by
  induction hb generalizing y with
  | zero => simp [interleave, interleaveLoop, Nat.mod_one]
  | succ hb ih =>
    have hround : interleave x y 0 (hb + 1) = y % 2 ||| interleave x (y / 2) 0 hb <<< 1 := by
      rw [interleave, Nat.zero_max, interleaveLoop, interleaveLoop_eq_or]
      simp [interleave]
    rw [hround, ih, Nat.or_comm, ← Nat.shiftLeft_add_eq_or_of_lt (Nat.mod_lt _ (by decide)), Nat.shiftLeft_eq,
      mod_two_pow_succ y hb]
    omega

/-! ## The bits -/

section
variable (x y wb hb : Nat)

theorem interleave_testBit_zero : (interleave x y (wb + 1) (hb + 1)).testBit 0 = x.testBit 0 := by
  rw [interleave_succ_succ, Nat.testBit_zero, Nat.testBit_zero]
  congr 2
  omega

theorem interleave_testBit_one : (interleave x y (wb + 1) (hb + 1)).testBit 1 = y.testBit 0 := by
  rw [interleave_succ_succ, Nat.testBit_succ, Nat.testBit_zero, Nat.testBit_zero]
  congr 2
  omega

theorem interleave_testBit_add_two (j : Nat) :
    (interleave x y (wb + 1) (hb + 1)).testBit (j + 2) = (interleave (x / 2) (y / 2) wb hb).testBit j := by
  rw [interleave_succ_succ, Nat.testBit_add]
  congr 1
  omega

end

/-- Below twice the smaller budget, x gives the even bits. -/
theorem interleave_testBit_even {i : Nat} (hw : i < wb) (hh : i < hb) :
    (interleave x y wb hb).testBit (2 * i) = x.testBit i := by
  obtain ⟨wb, rfl⟩ := Nat.exists_eq_succ_of_ne_zero (Nat.ne_zero_of_lt hw)
  obtain ⟨hb, rfl⟩ := Nat.exists_eq_succ_of_ne_zero (Nat.ne_zero_of_lt hh)
  induction i generalizing x y wb hb with
  | zero => exact interleave_testBit_zero x y wb hb
  | succ i ih =>
    obtain ⟨wb, rfl⟩ := Nat.exists_eq_succ_of_ne_zero (show wb ≠ 0 by omega)
    obtain ⟨hb, rfl⟩ := Nat.exists_eq_succ_of_ne_zero (show hb ≠ 0 by omega)
    rw [Nat.mul_succ, interleave_testBit_add_two, ih wb (by omega) hb (by omega), Nat.testBit_div_two]

/-- Below twice the smaller budget, y gives the odd bits. -/
theorem interleave_testBit_odd {i : Nat} (hw : i < wb) (hh : i < hb) :
    (interleave x y wb hb).testBit (2 * i + 1) = y.testBit i := by
  obtain ⟨wb, rfl⟩ := Nat.exists_eq_succ_of_ne_zero (Nat.ne_zero_of_lt hw)
  obtain ⟨hb, rfl⟩ := Nat.exists_eq_succ_of_ne_zero (Nat.ne_zero_of_lt hh)
  induction i generalizing x y wb hb with
  | zero => exact interleave_testBit_one x y wb hb
  | succ i ih =>
    obtain ⟨wb, rfl⟩ := Nat.exists_eq_succ_of_ne_zero (show wb ≠ 0 by omega)
    obtain ⟨hb, rfl⟩ := Nat.exists_eq_succ_of_ne_zero (show hb ≠ 0 by omega)
    rw [Nat.mul_succ, Nat.add_right_comm, interleave_testBit_add_two, ih wb (by omega) hb (by omega), Nat.testBit_div_two]

/-- Past twice the smaller budget of y, the rest of x follows. -/
theorem interleave_testBit_x {j : Nat} (hj : 2 * hb ≤ j) (hlt : j < wb + hb) :
    (interleave x y wb hb).testBit j = x.testBit (j - hb) := by
  induction hb generalizing x y wb j with
  | zero =>
    rw [interleave_zero_right, Nat.testBit_mod_two_pow, decide_eq_true (show j < wb from hlt), Bool.true_and, Nat.sub_zero]
  | succ hb ih =>
    obtain ⟨wb, rfl⟩ := Nat.exists_eq_succ_of_ne_zero (show wb ≠ 0 by omega)
    obtain ⟨j, rfl⟩ := Nat.exists_eq_add_of_le' (show 2 ≤ j by omega)
    rw [interleave_testBit_add_two, ih (by omega) (by omega), Nat.testBit_div_two]
    congr 1
    omega

/-- Past twice the smaller budget of x, the rest of y follows. -/
theorem interleave_testBit_y {j : Nat} (hj : 2 * wb ≤ j) (hlt : j < wb + hb) :
    (interleave x y wb hb).testBit j = y.testBit (j - wb) := by
  induction wb generalizing x y hb j with
  | zero =>
    rw [interleave_zero_left, Nat.testBit_mod_two_pow, decide_eq_true (show j < hb by omega), Bool.true_and, Nat.sub_zero]
  | succ wb ih =>
    obtain ⟨hb, rfl⟩ := Nat.exists_eq_succ_of_ne_zero (show hb ≠ 0 by omega)
    obtain ⟨j, rfl⟩ := Nat.exists_eq_add_of_le' (show 2 ≤ j by omega)
    rw [interleave_testBit_add_two, ih (by omega) (by omega), Nat.testBit_div_two]
    congr 1
    omega

/-! ## The inverse -/

/-- What holds with either budget spent, and with one bit more of each coordinate, holds of every pair of budgets. -/
theorem budgets_induction {P : Nat → Nat → Prop} (hzero : ∀ hb, P 0 hb) (hspent : ∀ wb, P (wb + 1) 0)
    (hopen : ∀ wb hb, P wb hb → P (wb + 1) (hb + 1)) : ∀ wb hb, P wb hb
  | 0, hb => hzero hb
  | wb + 1, 0 => hspent wb
  | wb + 1, hb + 1 => hopen wb hb (budgets_induction hzero hspent hopen wb hb)

theorem two_pow_succ_add_succ (wb hb : Nat) : 2 ^ (wb + 1 + (hb + 1)) = 4 * 2 ^ (wb + hb) := by
  rw [show wb + 1 + (hb + 1) = wb + hb + 2 by omega, Nat.pow_add]
  omega

theorem interleave_lt (x y wb hb : Nat) : interleave x y wb hb < 2 ^ (wb + hb) := by
  induction wb, hb using budgets_induction generalizing x y with
  | hzero hb => rw [interleave_zero_left, Nat.zero_add]; exact Nat.mod_lt _ (Nat.two_pow_pos hb)
  | hspent wb => rw [interleave_zero_right]; exact Nat.mod_lt _ (Nat.two_pow_pos _)
  | hopen wb hb ih =>
    have := ih (x / 2) (y / 2)
    rw [interleave_succ_succ, two_pow_succ_add_succ]
    omega

/-- The offset does not depend on the bits of y past its budget. -/
theorem interleave_mod_right (x y wb hb : Nat) : interleave x (y % 2 ^ hb) wb hb = interleave x y wb hb := by
  induction wb, hb using budgets_induction generalizing x y with
  | hzero hb => rw [interleave_zero_left, interleave_zero_left, Nat.mod_mod]
  | hspent wb => rw [interleave_zero_right, interleave_zero_right]
  | hopen wb hb ih =>
    have hlow : y % 2 ^ (hb + 1) % 2 = y % 2 := by rw [mod_two_pow_succ]; omega
    have hrest : y % 2 ^ (hb + 1) / 2 = y / 2 % 2 ^ hb := by rw [mod_two_pow_succ]; omega
    rw [interleave_succ_succ, interleave_succ_succ, hlow, hrest, ih]

/-- Coordinates within the budgets are fixed by their offset. -/
theorem interleave_injective (hx : x < 2 ^ wb) (hy : y < 2 ^ hb) (hx' : x' < 2 ^ wb) (hy' : y' < 2 ^ hb)
    (h : interleave x y wb hb = interleave x' y' wb hb) : x = x' ∧ y = y' := by
  induction wb, hb using budgets_induction generalizing x y x' y' with
  | hzero hb =>
    rw [interleave_zero_left, interleave_zero_left, Nat.mod_eq_of_lt hy, Nat.mod_eq_of_lt hy'] at h
    omega
  | hspent wb =>
    rw [interleave_zero_right, interleave_zero_right, Nat.mod_eq_of_lt hx, Nat.mod_eq_of_lt hx'] at h
    omega
  | hopen wb hb ih =>
    rw [Nat.pow_succ] at hx hy hx' hy'
    rw [interleave_succ_succ, interleave_succ_succ] at h
    obtain ⟨hxs, hys⟩ := ih (x := x / 2) (y := y / 2) (x' := x' / 2) (y' := y' / 2) (by omega) (by omega) (by omega) (by omega)
      (by omega)
    omega

/-- The coordinates at an offset: the bits of `o` dealt out to x and y in turn while both budgets last. -/
def deinterleave : (o wb hb : Nat) → Nat × Nat
  | o, 0, _ => (0, o)
  | o, _ + 1, 0 => (o, 0)
  | o, wb + 1, hb + 1 =>
    (o % 2 + 2 * (deinterleave (o / 4) wb hb).1, o / 2 % 2 + 2 * (deinterleave (o / 4) wb hb).2)

theorem deinterleave_lt (ho : o < 2 ^ (wb + hb)) :
    (deinterleave o wb hb).1 < 2 ^ wb ∧ (deinterleave o wb hb).2 < 2 ^ hb := by
  induction wb, hb using budgets_induction generalizing o with
  | hzero hb => exact ⟨Nat.one_pos, by rwa [Nat.zero_add] at ho⟩
  | hspent wb => exact ⟨ho, Nat.one_pos⟩
  | hopen wb hb ih =>
    rw [two_pow_succ_add_succ] at ho
    obtain ⟨hx, hy⟩ := ih (o := o / 4) (by omega)
    rw [deinterleave, Nat.pow_succ, Nat.pow_succ]
    omega

theorem interleave_deinterleave (ho : o < 2 ^ (wb + hb)) :
    interleave (deinterleave o wb hb).1 (deinterleave o wb hb).2 wb hb = o := by
  induction wb, hb using budgets_induction generalizing o with
  | hzero hb => rw [interleave_zero_left]; exact Nat.mod_eq_of_lt (by rwa [Nat.zero_add] at ho)
  | hspent wb => rw [interleave_zero_right]; exact Nat.mod_eq_of_lt ho
  | hopen wb hb ih =>
    rw [two_pow_succ_add_succ] at ho
    have hrest := ih (o := o / 4) (by omega)
    rw [deinterleave, interleave_succ_succ, Nat.add_mul_mod_self_left, Nat.add_mul_mod_self_left,
      Nat.add_mul_div_left _ _ Nat.two_pos, Nat.add_mul_div_left _ _ Nat.two_pos, Nat.mod_div_self, Nat.mod_div_self, Nat.zero_add,
      Nat.zero_add, hrest]
    omega

theorem deinterleave_interleave (hx : x < 2 ^ wb) (hy : y < 2 ^ hb) : deinterleave (interleave x y wb hb) wb hb = (x, y) := by
  have ho := interleave_lt x y wb hb
  obtain ⟨hx', hy'⟩ := deinterleave_lt ho
  obtain ⟨hxs, hys⟩ := interleave_injective hx' hy' hx hy (interleave_deinterleave ho)
  exact Prod.ext hxs hys

end Sys2Proof.Machine
end

section
/-! DESWIZZLE (41_swizzle.md R135, R137): each byte of the canvas it writes, and what it answers. -/
namespace Sys2Proof.Machine

variable {s t : State} {x y k e n : Nat}

/-! ## Places in row-major order -/

theorem rowMajor_lt {w h : Nat} (hx : x < w) (hy : y < h) : y * w + x < w * h := by
  calc y * w + x < y * w + w := Nat.add_lt_add_left hx _
    _ = w * (y + 1) := by ring
    _ ≤ w * h := Nat.mul_le_mul_left w hy

theorem rowMajor_injective {w x' y' : Nat} (hx : x < w) (hx' : x' < w) (h : y * w + x = y' * w + x') : x = x' ∧ y = y' := by
  have hxs : x = x' := by
    have hmod := congrArg (· % w) h
    simpa [Nat.mul_add_mod', Nat.mod_eq_of_lt hx, Nat.mod_eq_of_lt hx'] using hmod
  subst hxs
  exact ⟨rfl, Nat.eq_of_mul_eq_mul_right (Nat.zero_lt_of_lt hx) (Nat.add_right_cancel h)⟩

/-- The row-major place of the source pixel at offset `o`, for budgets `e` and `d`. -/
def rowMajorPlace (e d o : Nat) : Nat := (deinterleave o e d).2 * 2 ^ e + (deinterleave o e d).1

theorem rowMajorPlace_interleave {d : Nat} (hx : x < 2 ^ e) (hy : y < 2 ^ d) :
    rowMajorPlace e d (interleave x y e d) = y * 2 ^ e + x := by
  rw [rowMajorPlace, deinterleave_interleave hx hy]

theorem rowMajorPlace_lt {d o : Nat} (ho : o < 2 ^ (e + d)) : rowMajorPlace e d o < 2 ^ (e + d) :=
  (rowMajor_lt (deinterleave_lt ho).1 (deinterleave_lt ho).2).trans_eq (Nat.pow_add 2 e d).symm

theorem rowMajorPlace_injective {d o o' : Nat} (ho : o < 2 ^ (e + d)) (ho' : o' < 2 ^ (e + d))
    (h : rowMajorPlace e d o = rowMajorPlace e d o') : o = o' := by
  obtain ⟨hx, hy⟩ := rowMajor_injective (deinterleave_lt ho).1 (deinterleave_lt ho').1 h
  rw [← interleave_deinterleave ho, hx, hy, interleave_deinterleave ho']

/-! ## The bytes of the canvas -/

/-- Byte k of destination pixel (x, y) is byte k of the source pixel at their interleave (R135). -/
theorem deswizzleBytes_getD {cw ch : Nat} (src : List Byte) (d : Byte) (hx : x < cw) (hy : y < ch) (hk : k < 4) :
    (deswizzleBytes cw ch src).getD ((y * cw + x) * 4 + k) d =
      src.getD (interleave x y (budget cw) (budget ch) * 4 + k) 0 := by
  have hrow : 4 * x + k < cw * 4 := by omega
  have hplace : (y * cw + x) * 4 + k = cw * 4 * y + (4 * x + k) := by ring
  rw [deswizzleBytes, hplace, List.getD_eq_getElem?_getD,
    getElem?_flatMap_of_length_eq (by simp [List.length_flatMap]) hrow, List.getElem?_range hy, Option.bind_some,
    getElem?_flatMap_of_length_eq (by simp) hk, List.getElem?_range hx, Option.bind_some, List.getElem?_map,
    List.getElem?_range hk]
  rfl

/-- Legal dimensions have budgets of at most 14, so a pixel offset has at most 28 bits (R133). -/
theorem interleave_lt_of_dimsLegal (x y : Nat) (hdims : s.dimsLegal) :
    interleave x y (Nat.log2 (max s.width.toNat 1)) (Nat.log2 (max s.height.toNat 1)) < 2 ^ 28 := by
  have hw := log2_max_lt hdims.1
  have hh := log2_max_lt hdims.2
  exact (interleave_lt _ _ _ _).trans_le (Nat.pow_le_pow_right Nat.two_pos (by omega))

/-- Memory after DESWIZZLE. -/
def deswizzleMem (s : State) : Memory := s.mem.writeBytes s.dstAddr.toNat (deswizzleOut s)

theorem deswizzleMem_read (s : State) (hk : k < deswizzleNeed s) :
    (deswizzleMem s).read (s.dstAddr.toNat + k) = (deswizzleOut s).getD k unlistedByte := by
  rw [deswizzleMem, Memory.read_writeBytes, deswizzleOut_length, if_pos (by omega), Nat.add_sub_cancel_left]

theorem deswizzleMem_read_outside {a : Nat}
    (ha : ¬(s.dstAddr.toNat ≤ a ∧ a < s.dstAddr.toNat + deswizzleNeed s)) : (deswizzleMem s).read a = s.mem.read a := by
  rw [deswizzleMem, Memory.read_writeBytes, deswizzleOut_length, if_neg ha]

/-- On a width that is no power of two the bytes pass unchanged. -/
theorem deswizzleMem_read_of_copy (hw : pow2 s.width.toNat = false) (hk : k < deswizzleNeed s) :
    (deswizzleMem s).read (s.dstAddr.toNat + k) = s.mem.read (s.srcAddr.toNat + k) := by
  have hout : deswizzleOut s = s.source (deswizzleNeed s) := if_neg (by simp [hw])
  rw [deswizzleMem_read s hk, hout, State.source, Memory.readBytes_getD _ _ _ _ _ hk]

/-- The interleave of canvas coordinates stays within the source: rounding the height down to a power of two does not leave it. -/
theorem interleave_lt_canvas {w h : Nat} (hw : w = 2 ^ e) (x y : Nat) :
    interleave x y e (Nat.log2 (max h 1)) < w * max h 1 := by
  calc interleave x y e (Nat.log2 (max h 1)) < 2 ^ (e + Nat.log2 (max h 1)) := interleave_lt _ _ _ _
    _ = w * 2 ^ Nat.log2 (max h 1) := by rw [Nat.pow_add, hw]
    _ ≤ w * max h 1 := Nat.mul_le_mul_left w (two_pow_log2_max_le h)

theorem deswizzleNeed_of_two_pow (hw : s.width.toNat = 2 ^ e) : deswizzleNeed s = s.width.toNat * max s.height.toNat 1 * 4 := by
  rw [deswizzleNeed, max_one_of_two_pow hw]

/-- On a power-of-two width each destination pixel takes the four bytes at its interleaved offset. -/
theorem deswizzleMem_read_of_two_pow (hw : s.width.toNat = 2 ^ e) (hx : x < s.width.toNat) (hy : y < max s.height.toNat 1)
    (hk : k < 4) :
    (deswizzleMem s).read (s.dstAddr.toNat + (y * s.width.toNat + x) * 4 + k) =
      s.mem.read (s.srcAddr.toNat + interleave x y e (Nat.log2 (max s.height.toNat 1)) * 4 + k) := by
  have hneed := deswizzleNeed_of_two_pow hw
  have hplace := rowMajor_lt hx hy
  have hsrc := interleave_lt_canvas (h := s.height.toNat) hw x y
  have hwb : budget s.width.toNat = e := by
    rw [budget_eq (half_lt_word _), max_one_of_two_pow hw, hw, Nat.log2_two_pow]
  have hhb : budget (max s.height.toNat 1) = Nat.log2 (max s.height.toNat 1) := by
    rw [budget_eq (max_lt (half_lt_word _) (by decide)), max_assoc, max_self]
  have hout : deswizzleOut s =
      deswizzleBytes s.width.toNat (max s.height.toNat 1) (s.source (deswizzleNeed s)) := by
    rw [deswizzleOut, if_pos (pow2_iff.mpr ⟨e, hw⟩), max_one_of_two_pow hw]
  rw [Nat.add_assoc, deswizzleMem_read s (by omega), hout, deswizzleBytes_getD _ _ hx hy hk, hwb, hhb, State.source,
    Memory.readBytes_getD _ _ _ _ _ (by omega), Nat.add_assoc]

/-! ## What the command answers -/

theorem deswizzleError_of_ready (hdims : s.dimsLegal) (hready : s.regionsReady (deswizzleNeed s) (deswizzleNeed s)) :
    deswizzleError s = none := by
  have hregion := (regionsReady_checks s _ _ hready).1
  rw [deswizzleError, (dimError_eq_none_iff _ _).mpr hdims, hregion]
  rfl

theorem execDeswizzle_of_ready (hdims : s.dimsLegal) (hready : s.regionsReady (deswizzleNeed s) (deswizzleNeed s))
    (hshape : deswizzleRefused s = false) :
    execDeswizzle s = .next { s with mem := deswizzleMem s, status := statusWord 0 0x06 } := by
  obtain ⟨-, hadm⟩ := regionsReady_checks s _ _ hready
  rw [execDeswizzle, deswizzleError_of_ready hdims hready, hshape, hadm]
  rfl

theorem execDeswizzle_of_refused (hdims : s.dimsLegal) (hready : s.regionsReady (deswizzleNeed s) (deswizzleNeed s))
    (hshape : deswizzleRefused s = true) : execDeswizzle s = .refused .nonpow2Height := by
  rw [execDeswizzle, deswizzleError_of_ready hdims hready, hshape]
  rfl

end Sys2Proof.Machine
end

section
namespace Sys2Proof.Proofs

open Sys2Proof Sys2Proof.Machine

/-- Settles O31: the log2 unit is the floor logarithm. -/
theorem log2GivesFloorLog : Obligations.Log2GivesFloorLog := by
  intro s
  show execLog2 s = _
  rw [execLog2_eq, log2_eq]
  rfl

/-- Settles O32: each clause is the lemma of its range of bits; past both budgets the interleave is too small to have a bit. -/
theorem interleaveBitSources : Obligations.InterleaveBitSources := by
  intro x y wb hb j
  refine ⟨fun hj heven => ?_, fun hj hodd => ?_, interleave_testBit_x, interleave_testBit_y, fun hj => ?_⟩
  · rw [← interleave_testBit_even (x := x) (y := y) (show j / 2 < wb by omega) (show j / 2 < hb by omega)]
    congr 1
    omega
  · rw [← interleave_testBit_odd (x := x) (y := y) (show j / 2 < wb by omega) (show j / 2 < hb by omega)]
    congr 1
    omega
  · exact Nat.testBit_lt_two_pow ((interleave_lt x y wb hb).trans_le (Nat.pow_le_pow_right Nat.two_pos hj))

/-- Settles O33: `deinterleave` gives the coordinates at each offset. -/
theorem interleaveIsBijective : Obligations.InterleaveIsBijective := fun wb hb =>
  ⟨fun x y => interleave_lt x y wb hb, fun _ _ _ _ => interleave_injective, fun _ ho =>
    ⟨_, _, (deinterleave_lt ho).1, (deinterleave_lt ho).2, interleave_deinterleave ho⟩⟩

/-- Settles O34: legal dimensions have budgets of at most 14, and the two answers are those of the command. -/
theorem swzOffsetResults : Obligations.SwzOffsetResults := by
  intro s
  refine ⟨fun hdims => ?_, fun hdims => ?_⟩
  · refine ⟨interleave_lt_of_dimsLegal _ _ hdims, ?_⟩
    show execSwzOffset s = _
    rcases execSwzOffset_cases s with ⟨hbad, -⟩ | ⟨-, -, hexec⟩
    · exact absurd hdims hbad
    · rw [hexec, budget_eq (half_lt_word _), budget_eq (half_lt_word _)]
      rfl
  · show execSwzOffset s = _
    rcases execSwzOffset_cases s with ⟨-, hexec⟩ | ⟨hw, hh, -⟩
    · exact hexec
    · exact absurd ⟨hw, hh⟩ hdims

/-- Settles O35: the command is not refused, and its memory is `deswizzleMem`. -/
theorem deswizzleReordersPixels : Obligations.DeswizzleReordersPixels := by
  intro s e hw hdims hshape hready
  rw [← deswizzleNeed_of_two_pow hw] at hready ⊢
  have hnot : deswizzleRefused s = false := by
    rw [← Bool.not_eq_true, deswizzleRefused_iff]
    rintro ⟨hrefuse, -, hheight⟩
    rcases hshape with hliteral | hpow
    · rw [hliteral] at hrefuse
      cases hrefuse
    · rw [pow2_iff.mpr hpow] at hheight
      cases hheight
  exact ⟨deswizzleMem s, execDeswizzle_of_ready hdims hready hnot,
    fun _ _ _ hx hy hk => deswizzleMem_read_of_two_pow hw hx hy hk, fun _ => deswizzleMem_read_outside⟩

/-- Settles O36: a width that is no power of two is never refused, and the bytes pass unchanged. -/
theorem deswizzleCopiesOtherWidths : Obligations.DeswizzleCopiesOtherWidths := by
  intro s hw hdims hready
  have hcopy : pow2 s.width.toNat = false := by
    rw [← Bool.not_eq_true, pow2_iff]
    exact fun ⟨e, he⟩ => hw e he
  have hnot : deswizzleRefused s = false := by rw [deswizzleRefused, hcopy]; rfl
  exact ⟨deswizzleMem s, execDeswizzle_of_ready hdims hready hnot, fun _ => deswizzleMem_read_of_copy hcopy,
    fun _ => deswizzleMem_read_outside⟩

end Sys2Proof.Proofs
end

section
/-! The canvas (40_header_format.md R110 to R113): the least multiple of the unit, and the bounds of the level size. -/
namespace Sys2Proof.Machine

variable {f : Format} {w h q : Nat}

theorem ceilDiv_eq (a b : Nat) : ceilDiv a b = a ⌈/⌉ b := (Nat.ceilDiv_eq_add_pred_div a b).symm

theorem le_canvasSize (hq : 0 < q) : max w 1 ≤ canvasSize w q := by
  rw [canvasSize, ceilDiv_eq, Nat.mul_comm]
  exact (ceilDiv_le_iff_le_mul hq).mp le_rfl

theorem canvasSize_le_of_dvd {c : Nat} (hq : 0 < q) (hdvd : q ∣ c) (hle : max w 1 ≤ c) : canvasSize w q ≤ c := by
  obtain ⟨n, rfl⟩ := hdvd
  rw [canvasSize, ceilDiv_eq, Nat.mul_comm]
  exact Nat.mul_le_mul_left q ((ceilDiv_le_iff_le_mul hq).mpr hle)

/-! ## The two kinds of format: one pixel as unit, or a block of 4 × 4 -/

theorem formatQuant_cases (f : Format) :
    (formatQuant f = 1 ∧ ∃ b ≤ 4, formatBpp f = b * 8) ∨ (formatQuant f = 4 ∧ formatBpp f ≤ 8) := by
  cases f
  case gray => exact .inl ⟨rfl, 1, by decide, rfl⟩
  case rgb => exact .inl ⟨rfl, 3, by decide, rfl⟩
  case rgba => exact .inl ⟨rfl, 4, by decide, rfl⟩
  case bgra => exact .inl ⟨rfl, 4, by decide, rfl⟩
  case dxt1 => exact .inr ⟨rfl, by decide⟩
  case dxt3 => exact .inr ⟨rfl, by decide⟩
  case dxt5 => exact .inr ⟨rfl, by decide⟩

theorem canvasSize_one (w : Nat) : canvasSize w 1 = max w 1 := by simp [canvasSize, ceilDiv]

theorem canvasSize_four (w : Nat) : canvasSize w 4 = blockCount w * 4 := rfl

/-- A level of a pixel format is its pixels times their bytes. -/
theorem levelSize_of_pixels {b : Nat} (hquant : formatQuant f = 1) (hbpp : formatBpp f = b * 8) :
    levelSize f w h = max w 1 * max h 1 * b := by
  rw [levelSize, hquant, hbpp, canvasSize_one, canvasSize_one, ← Nat.mul_assoc, Nat.mul_div_cancel _ (by decide)]

/-- A level of a block format is its blocks times the bytes of 16 pixels (R113). -/
theorem levelSize_of_blocks (hquant : formatQuant f = 4) :
    levelSize f w h = blockCount w * blockCount h * (2 * formatBpp f) := by
  have hbits : blockCount w * 4 * (blockCount h * 4) * formatBpp f = blockCount w * blockCount h * (2 * formatBpp f) * 8 := by ring
  rw [levelSize, hquant, canvasSize_four, canvasSize_four, hbits, Nat.mul_div_cancel _ (by decide)]

/-! ## Bounds (R112) -/

theorem canvasSize_le (f : Format) (hw : w < 0x8000) : canvasSize w (formatQuant f) ≤ 0x8000 := by
  have hmax : max w 1 ≤ 0x8000 := max_le hw.le (by decide)
  cases f <;> exact canvasSize_le_of_dvd (by decide) (by decide) hmax

theorem levelSize_mul_eight (f : Format) (w h : Nat) :
    levelSize f w h * 8 = canvasSize w (formatQuant f) * canvasSize h (formatQuant f) * formatBpp f := by
  rcases formatQuant_cases f with ⟨hquant, b, -, hbpp⟩ | ⟨hquant, -⟩
  · rw [levelSize_of_pixels hquant hbpp, hquant, hbpp, canvasSize_one, canvasSize_one, Nat.mul_assoc]
  · rw [levelSize_of_blocks hquant, hquant, canvasSize_four, canvasSize_four]
    ring

/-- The largest level is a 4-byte format's at the largest legal dimensions. -/
theorem levelSize_le (f : Format) (hw : w < 0x8000) (hh : h < 0x8000) : levelSize f w h ≤ 0xFFFC0004 := by
  rcases formatQuant_cases f with ⟨hquant, b, hb, hbpp⟩ | ⟨hquant, hbpp⟩
  · have hwm : max w 1 ≤ 0x7FFF := by omega
    have hhm : max h 1 ≤ 0x7FFF := by omega
    calc levelSize f w h = max w 1 * max h 1 * b := levelSize_of_pixels hquant hbpp
      _ ≤ 0x7FFF * 0x7FFF * 4 := Nat.mul_le_mul (Nat.mul_le_mul hwm hhm) hb
      _ ≤ 0xFFFC0004 := by decide
  · have hbw : blockCount w ≤ 0x2000 := by rw [blockCount, ceilDiv]; omega
    have hbh : blockCount h ≤ 0x2000 := by rw [blockCount, ceilDiv]; omega
    calc levelSize f w h = blockCount w * blockCount h * (2 * formatBpp f) := levelSize_of_blocks hquant
      _ ≤ 0x2000 * 0x2000 * (2 * 8) := Nat.mul_le_mul (Nat.mul_le_mul hbw hbh) (Nat.mul_le_mul_left 2 hbpp)
      _ ≤ 0xFFFC0004 := by decide

theorem toNat_ofNat_canvasSize (f : Format) (hw : w < 0x8000) :
    (BitVec.ofNat 16 (canvasSize w (formatQuant f))).toNat = canvasSize w (formatQuant f) :=
  (BitVec.toNat_ofNat _ _).trans (Nat.mod_eq_of_lt ((canvasSize_le f hw).trans_lt (by decide)))

theorem toNat_ofNat_levelSize (f : Format) (hw : w < 0x8000) (hh : h < 0x8000) :
    (BitVec.ofNat 32 (levelSize f w h)).toNat = levelSize f w h :=
  (BitVec.toNat_ofNat _ _).trans (Nat.mod_eq_of_lt ((levelSize_le f hw hh).trans_lt (by decide)))

end Sys2Proof.Machine
end

section
namespace Sys2Proof.Proofs

open Sys2Proof Sys2Proof.Machine

/-- Settles O29: the bounds, the exact division, and no truncation by the bounds. -/
theorem canvasResultsAreExact : Obligations.CanvasResultsAreExact := by
  refine fun f w h hw hh => ⟨canvasSize_le f hw, canvasSize_le f hh, levelSize_mul_eight f w h, levelSize_le f hw hh,
    toNat_ofNat_canvasSize f hw, toNat_ofNat_canvasSize f hh, toNat_ofNat_levelSize f hw hh, ?_, ?_⟩
  · rintro rfl
    exact levelSize_of_blocks rfl
  · rintro (rfl | rfl) <;> exact levelSize_of_blocks rfl

/-- Settles O30: rounding up by `ceilDiv` is the least upper multiple. -/
theorem canvasIsTheLeastMultiple : Obligations.CanvasIsTheLeastMultiple := fun _ q hq =>
  ⟨Nat.dvd_mul_left q _, le_canvasSize hq, fun _ => canvasSize_le_of_dvd hq⟩

/-- Settles O24: the table row by row. -/
theorem formatTableRows : Obligations.FormatTableRows := by
  unfold Obligations.FormatTableRows
  rfl

end Sys2Proof.Proofs
end

section
/-! The surface commands (42_block_decompress.md R165, R166, R170): the placed pixels, memory after they are put one by one, and what
the commands answer. -/
namespace Sys2Proof.Machine

variable {s t : State} {k : BlockKind} {cfg : Config} {o : OutOrder} {dst w h x y c bw bh : Nat} {src : List Byte} {p : Pixel}
  {m : Memory}

/-! ## The placed pixels -/

/-- Pixel (x, y) of a surface of `bw` block columns: pixel 4(y mod 4) + x mod 4 of block (x / 4, y / 4) of the source (R165, R166). -/
def surfacePixel (cfg : Config) (k : BlockKind) (bw : Nat) (src : List Byte) (x y : Nat) : Pixel :=
  (decodeBlock cfg k (slice src ((y / 4 * bw + x / 4) * blockBytes k) (blockBytes k))).getD (4 * (y % 4) + x % 4) Pixel.clear

theorem surfacePixel_of_mem (q : PlacedPixel) (hq : q ∈ surfacePixels cfg k bw bh src) :
    q.p = surfacePixel cfg k bw src q.x q.y := by
  simp only [surfacePixels, placeBlock, List.mem_flatMap, List.mem_map, List.mem_range] at hq
  obtain ⟨by₀, -, bx, -, r, hr, j, hj, rfl⟩ := hq
  have hrow : (4 * by₀ + r) / 4 = by₀ ∧ (4 * by₀ + r) % 4 = r := by omega
  have hcol : (4 * bx + j) / 4 = bx ∧ (4 * bx + j) % 4 = j := by omega
  simp only [surfacePixel, hrow, hcol]

theorem mem_surfacePixels (hx : x / 4 < bw) (hy : y / 4 < bh) :
    ⟨x, y, surfacePixel cfg k bw src x y⟩ ∈ surfacePixels cfg k bw bh src := by
  simp only [surfacePixels, placeBlock, List.mem_flatMap, List.mem_map, List.mem_range]
  refine ⟨y / 4, hy, x / 4, hx, y % 4, Nat.mod_lt _ (by decide), x % 4, Nat.mod_lt _ (by decide), ?_⟩
  rw [Nat.div_add_mod, Nat.div_add_mod]
  rfl

/-! ## Putting pixels one by one -/

theorem putPixel_of_clipped {q : PlacedPixel} (hq : ¬(q.x < w ∧ q.y < h)) (m : Memory) : putPixel o dst w h m q = m := if_neg hq

/-- The four bytes of a pixel inside the image. -/
theorem putPixel_read_same {q : PlacedPixel} (m : Memory) (hx : q.x < w) (hy : q.y < h) (hc : c < 4) :
    (putPixel o dst w h m q).read (dst + ((h - 1 - q.y) * w + q.x) * 4 + c) = (pixelBytes o q.p).getD c unlistedByte := by
  rw [putPixel_read, if_pos ⟨hx, hy, by omega, by omega⟩, Nat.add_sub_cancel_left]

/-- Places of different pixels are disjoint. -/
theorem putPixel_read_other {q : PlacedPixel} (m : Memory) (hx : x < w) (hy : y < h) (hc : c < 4) (hne : ¬(q.x = x ∧ q.y = y)) :
    (putPixel o dst w h m q).read (dst + ((h - 1 - y) * w + x) * 4 + c) = m.read (dst + ((h - 1 - y) * w + x) * 4 + c) := by
  rw [putPixel_read, if_neg]
  rintro ⟨hqx, hqy, hlo, hhi⟩
  obtain ⟨hxs, hys⟩ := rowMajor_injective hqx hx (show (h - 1 - q.y) * w + q.x = (h - 1 - y) * w + x by omega)
  exact hne ⟨hxs, by omega⟩

/-- No pixel leaves the image's own bytes. -/
theorem pixel_place_lt (hx : x < w) (hy : y < h) : (h - 1 - y) * w + x < w * h := rowMajor_lt hx (by omega)

theorem putPixel_read_outside {a : Nat} (m : Memory) (q : PlacedPixel) (ha : ¬(dst ≤ a ∧ a < dst + w * h * 4)) :
    (putPixel o dst w h m q).read a = m.read a := by
  rw [putPixel_read, if_neg]
  rintro ⟨hx, hy, hlo, hhi⟩
  have := pixel_place_lt hx hy
  omega

theorem putPixel_wf (q : PlacedPixel) (hm : m.wf) (hend : dst + w * h * 4 ≤ 2 ^ 32) : (putPixel o dst w h m q).wf := by
  by_cases hq : q.x < w ∧ q.y < h
  · have := pixel_place_lt hq.1 hq.2
    rw [putPixel, if_pos hq]
    exact Memory.wf_writeBytes _ _ _ hm (by rw [pixelBytes_length]; omega)
  · rwa [putPixel_of_clipped hq]

/-- After the loop, a place inside the image holds the pixel put there, when all pixels put there agree. -/
theorem foldl_putPixel_read (hx : x < w) (hy : y < h) (hc : c < 4) (l : List PlacedPixel)
    (hagree : ∀ q ∈ l, q.x = x → q.y = y → q.p = p)
    (hput : (∃ q ∈ l, q.x = x ∧ q.y = y) ∨
      m.read (dst + ((h - 1 - y) * w + x) * 4 + c) = (pixelBytes o p).getD c unlistedByte) :
    (l.foldl (putPixel o dst w h) m).read (dst + ((h - 1 - y) * w + x) * 4 + c) = (pixelBytes o p).getD c unlistedByte := by
  induction l generalizing m with
  | nil => simpa using hput
  | cons q l ih =>
    refine ih (fun q' hq' => hagree q' (List.mem_cons_of_mem q hq')) ?_
    by_cases hq : q.x = x ∧ q.y = y
    · obtain ⟨rfl, rfl⟩ := hq
      exact .inr (by rw [putPixel_read_same m hx hy hc, hagree q List.mem_cons_self rfl rfl])
    · rw [putPixel_read_other m hx hy hc hq]
      refine hput.imp_left ?_
      rintro ⟨q', hq', hplace⟩
      rcases List.mem_cons.mp hq' with rfl | hq'
      · exact absurd hplace hq
      · exact ⟨q', hq', hplace⟩

theorem foldl_putPixel_read_outside {a : Nat} (l : List PlacedPixel) (m : Memory)
    (ha : ¬(dst ≤ a ∧ a < dst + w * h * 4)) : (l.foldl (putPixel o dst w h) m).read a = m.read a := by
  induction l generalizing m with
  | nil => rfl
  | cons q l ih => exact (ih _).trans (putPixel_read_outside m q ha)

theorem foldl_putPixel_wf (l : List PlacedPixel) (hm : m.wf) (hend : dst + w * h * 4 ≤ 2 ^ 32) :
    (l.foldl (putPixel o dst w h) m).wf := by
  induction l generalizing m with
  | nil => exact hm
  | cons q l ih => exact ih (putPixel_wf q hm hend)

/-- With no column or no row every pixel is clipped. -/
theorem foldl_putPixel_of_empty (l : List PlacedPixel) (m : Memory) (hempty : w = 0 ∨ h = 0) :
    l.foldl (putPixel o dst w h) m = m := by
  induction l with
  | nil => rfl
  | cons q l ih => rwa [List.foldl_cons, putPixel_of_clipped (by omega)]

/-! ## Memory after a surface command -/

theorem blockCount_eq (w : Nat) : blockCount w = (max w 1 + 3) / 4 := rfl

theorem div_four_lt_blockCount (hx : x < w) : x / 4 < blockCount w := by
  rw [blockCount_eq]
  omega

/-- The bytes of a block lie within the source need. -/
theorem block_end_le_surfaceSrcNeed (k : BlockKind) (hx : x < s.width.toNat) (hy : y < s.height.toNat) :
    (y / 4 * blockCount s.width.toNat + x / 4) * blockBytes k + blockBytes k ≤ surfaceSrcNeed k s := by
  have hplace := rowMajor_lt (div_four_lt_blockCount hx) (div_four_lt_blockCount hy)
  calc _ = (y / 4 * blockCount s.width.toNat + x / 4 + 1) * blockBytes k := by ring
    _ ≤ _ := Nat.mul_le_mul_right _ hplace

/-- Byte c of pixel (x, y), in destination row H - 1 - y, is that of its pixel in its block (R166, R170). -/
theorem surfaceMem_read (k : BlockKind) (s : State) (hx : x < s.width.toNat) (hy : y < s.height.toNat) (hc : c < 4) :
    (surfaceMem k s).read (s.dstAddr.toNat + ((s.height.toNat - 1 - y) * s.width.toNat + x) * 4 + c) =
      (pixelBytes s.cfg.outOrder
        ((decodeBlock s.cfg k (s.mem.readBytes
          (s.srcAddr.toNat + (y / 4 * blockCount s.width.toNat + x / 4) * blockBytes k) (blockBytes k))).getD
            (4 * (y % 4) + x % 4) Pixel.clear)).getD c unlistedByte := by
  rw [← slice_readBytes _ _ (block_end_le_surfaceSrcNeed k hx hy)]
  refine foldl_putPixel_read hx hy hc _ (fun q hq hqx hqy => ?_) (.inl ⟨_, mem_surfacePixels (div_four_lt_blockCount hx)
    (div_four_lt_blockCount hy), rfl, rfl⟩)
  rw [surfacePixel_of_mem q hq, hqx, hqy]
  rfl

theorem surfaceMem_read_outside {a : Nat} (k : BlockKind) (s : State)
    (ha : ¬(s.dstAddr.toNat ≤ a ∧ a < s.dstAddr.toNat + surfaceDstNeed s)) : (surfaceMem k s).read a = s.mem.read a :=
  foldl_putPixel_read_outside _ _ ha

theorem surfaceMem_wf (k : BlockKind) (hm : s.mem.wf) (hend : s.dstAddr.toNat + surfaceDstNeed s ≤ 2 ^ 32) :
    (surfaceMem k s).wf := foldl_putPixel_wf _ hm hend

theorem surfaceMem_of_empty (k : BlockKind) (hempty : s.width = 0 ∨ s.height = 0) : surfaceMem k s = s.mem :=
  foldl_putPixel_of_empty _ _ (hempty.imp (congrArg BitVec.toNat) (congrArg BitVec.toNat))

theorem surfaceDstNeed_of_empty (hempty : s.width = 0 ∨ s.height = 0) : surfaceDstNeed s = 0 := by
  rcases hempty with hw | hh
  · simp [surfaceDstNeed, hw]
  · simp [surfaceDstNeed, hh]

/-! ## What the commands answer -/

theorem surfaceCommand_of_ready (op : Byte) (hdims : s.dimsLegal) (hready : s.regionsReady (surfaceSrcNeed k s) (surfaceDstNeed s)) :
    surfaceCommand op k s = .next { s with mem := surfaceMem k s, status := statusWord 0 op } := by
  obtain ⟨hregion, hadm⟩ := regionsReady_checks s _ _ hready
  have herr : surfaceError k s = none := by
    rw [surfaceError, (dimError_eq_none_iff _ _).mpr hdims, hregion]
    rfl
  rw [surfaceCommand, herr]
  exact if_pos hadm

theorem surfaceCommand_of_short (op : Byte) (hdims : s.dimsLegal) (hshort : s.srcLen.toNat < surfaceSrcNeed k s) :
    surfaceCommand op k s = .next { s with status := statusWord 3 op } := by
  have herr : surfaceError k s = some .truncatedData := by
    rw [surfaceError, (dimError_eq_none_iff _ _).mpr hdims, regionError, srcError_of_short hshort]
    rfl
  rw [surfaceCommand, herr]
  rfl

end Sys2Proof.Machine
end

section
namespace Sys2Proof.Proofs

open Sys2Proof Sys2Proof.Machine

/-- Settles O45: the rows of the statement are the kinds, each with its surface instruction; memory is that of the command's loop. -/
theorem surfaceCommandsFlipAndClip : Obligations.SurfaceCommandsFlipAndClip := by
  show ∀ p ∈ blockKinds.map (fun k => (surfaceInstr k, k, blockBytes k, (surfaceInstr k).op)), _
  refine List.forall_mem_map.mpr fun k _ s hdims => ?_
  intro w h bw bh hready
  exact ⟨surfaceMem k s, (exec_surfaceInstr k s).trans (surfaceCommand_of_ready _ hdims hready),
    fun _ _ _ => surfaceMem_read k s, fun _ => surfaceMem_read_outside k s⟩

/-- Settles O46: the source is checked as ever, and the loop clips every pixel. -/
theorem emptySurfaceWritesNothing : Obligations.EmptySurfaceWritesNothing := by
  show ∀ p ∈ blockKinds.map (fun k => (surfaceInstr k, blockBytes k, (surfaceInstr k).op)), _
  refine List.forall_mem_map.mpr fun k _ s hdims hempty => ⟨fun hready => ?_, fun hshort => ?_⟩
  · rw [← surfaceDstNeed_of_empty hempty] at hready
    have hexec := surfaceCommand_of_ready (surfaceInstr k).op hdims (k := k) hready
    rw [surfaceMem_of_empty k hempty] at hexec
    exact (exec_surfaceInstr k s).trans hexec
  · exact (exec_surfaceInstr k s).trans (surfaceCommand_of_short (surfaceInstr k).op hdims hshort)

end Sys2Proof.Proofs
end

section
/-! What a completing command has done: it raised one of its errors, or it committed its results and then wrote STATUS (60_exceptions.md
R200, R201). -/
namespace Sys2Proof.Machine

variable {i : Instr} {s t u : State} {k : BlockKind} {e : CmdError}

/-! ## The errors of a command -/

/-- The error kinds a command reports (60_exceptions.md R201, the column "raised by"). -/
def raisable : Instr → List CmdError
  | .parseHdr => [.invalidDimensions, .unsupportedEncoding, .truncatedData, .badRegion]
  | .resolveFmt => [.unsupportedEncoding]
  | .canvasGray => [.invalidDimensions]
  | .canvasRgb => [.invalidDimensions]
  | .canvasRgba => [.invalidDimensions]
  | .canvasBgra => [.invalidDimensions]
  | .canvasDxt1 => [.invalidDimensions]
  | .canvasDxt3 => [.invalidDimensions]
  | .canvasDxt5 => [.invalidDimensions]
  | .log2 => []
  | .swzOffset => [.invalidDimensions]
  | .deswizzle => [.invalidDimensions, .truncatedData, .outputTooSmall, .badRegion]
  | .dxt1Block => [.truncatedData, .outputTooSmall, .badRegion]
  | .dxt3Block => [.truncatedData, .outputTooSmall, .badRegion]
  | .dxt5Block => [.truncatedData, .outputTooSmall, .badRegion]
  | .dxt1Surface => [.invalidDimensions, .truncatedData, .outputTooSmall, .badRegion]
  | .dxt3Surface => [.invalidDimensions, .truncatedData, .outputTooSmall, .badRegion]
  | .dxt5Surface => [.invalidDimensions, .truncatedData, .outputTooSmall, .badRegion]

theorem srcError_kind {n : Nat} (h : srcError s n = some e) : e = .truncatedData ∨ e = .badRegion := by
  unfold srcError at h
  split_ifs at h <;> cases h
  · exact .inl rfl
  · exact .inr rfl

/-- The checks on dimensions and regions together report the kinds of both. -/
theorem firstError_dim_region_kind {w h ns nd : Nat} (he : firstError [dimError w h, regionError s ns nd] = some e) :
    e = .invalidDimensions ∨ e = .truncatedData ∨ e = .outputTooSmall ∨ e = .badRegion := by
  cases hdim : dimError w h with
  | some d =>
    rw [hdim] at he
    cases he
    exact .inl (dimError_kind w h _ hdim)
  | none =>
    cases hregion : regionError s ns nd with
    | some d =>
      rw [hdim, hregion] at he
      cases he
      exact .inr (regionError_kind s ns nd _ hregion)
    | none =>
      rw [hdim, hregion] at he
      cases he

/-- When the checks on dimensions and regions all pass, so do those on the regions. -/
theorem regionError_of_firstError {c : Option CmdError} {ns nd : Nat} (h : firstError [c, regionError s ns nd] = none) :
    regionError s ns nd = none :=
  (firstError_eq_none_iff _).mp h _ (by simp)

/-! ## The results of a command -/

/-- Memory after a single-block command. -/
def blockMem (k : BlockKind) (s : State) : Memory := s.mem.writeBytes s.dstAddr.toNat (blockOut k s)

/-- `Commits s i u`: at `s` command `i` passes its checks, and `u` is `s` with its results written, STATUS still to come. Each result is
a variable of its own with an equation, so that comparing a field of `u` with one of `s` never computes it. -/
inductive Commits (s : State) : Instr → State → Prop
  | parseHdr (hd : Header) (f : Format) (hhd : hd = parseHeader (s.source 128)) (hw : hd.width.toNat < 0x8000)
      (hh : hd.height.toNat < 0x8000) (hf : resolve s.cfg hd.enc (headerCompressed hd) = some f) :
      Commits s .parseHdr (commitHeader hd f s)
  | resolveFmt (f : Format) (hf : resolve s.cfg s.opaEncoding s.opaCompressed = some f) :
      Commits s .resolveFmt (s.setFmt (fmtValue f))
  | canvas (f : Format) (dim bytes : Word) (hdims : s.dimsLegal)
      (hdim : dim = BitVec.ofNat 16 (canvasSize s.height.toNat (formatQuant f)) ++
        BitVec.ofNat 16 (canvasSize s.width.toNat (formatQuant f)))
      (hbytes : bytes = BitVec.ofNat 32 (levelSize f s.width.toNat s.height.toNat)) :
      Commits s (canvasInstr f) (s.setCanvas dim bytes)
  | log2 (v : Word) (hv : v = BitVec.ofNat 32 (log2 s.opa)) : Commits s .log2 (s.setResult v)
  | swzOffset (v : Word) (hdims : s.dimsLegal)
      (hv : v = BitVec.ofNat 32 (interleave s.opa.toNat s.opb.toNat (budget s.width.toNat) (budget s.height.toNat))) :
      Commits s .swzOffset (s.setResult v)
  | deswizzle (m : Memory) (hregion : regionError s (deswizzleNeed s) (deswizzleNeed s) = none) (hm : m = deswizzleMem s) :
      Commits s .deswizzle (s.setMem m)
  | block (k : BlockKind) (m : Memory) (hregion : regionError s (blockBytes k) 64 = none) (hm : m = blockMem k s) :
      Commits s (blockInstr k) (s.setMem m)
  | surface (k : BlockKind) (m : Memory) (hregion : regionError s (surfaceSrcNeed k s) (surfaceDstNeed s) = none)
      (hm : m = surfaceMem k s) : Commits s (surfaceInstr k) (s.setMem m)

/-- The two ways command `i` completes at `s`. -/
def Completes (i : Instr) (s t : State) : Prop :=
  (∃ e ∈ raisable i, t = raiseError i.op e s) ∨ ∃ u, Commits s i u ∧ t = finish i.op u

theorem Completes.of_raise (he : e ∈ raisable i) : Completes i s (raiseError i.op e s) := .inl ⟨e, he, rfl⟩

theorem Completes.of_commit (hu : Commits s i u) : Completes i s (finish i.op u) := .inr ⟨u, hu, rfl⟩

theorem completes_parseHdr (h : exec .parseHdr s = .next t) : Completes .parseHdr s t := by
  change execParseHdr s = _ at h
  rcases execParseHdr_cases s with ⟨e, he, hexec⟩ | ⟨-, -, hexec⟩ | ⟨-, -, hexec⟩ <;> rw [hexec] at h <;> cases h
  · exact .of_raise (i := .parseHdr) (by rcases srcError_kind he with rfl | rfl <;> decide)
  · rcases finishParse_cases 0x01 (parseHeader (s.source 128)) s with
      ⟨-, hparse⟩ | ⟨-, -, -, hparse⟩ | ⟨f, hw, hh, hf, hparse⟩ <;> rw [hparse]
    · exact .of_raise (i := .parseHdr) (by decide)
    · exact .of_raise (i := .parseHdr) (by decide)
    · exact .of_commit (i := .parseHdr) (.parseHdr _ f rfl hw hh hf)

theorem completes_resolveFmt (h : exec .resolveFmt s = .next t) : Completes .resolveFmt s t := by
  change execResolveFmt s = _ at h
  rcases execResolveFmt_cases s with ⟨-, hexec⟩ | ⟨f, hf, hexec⟩ <;> rw [hexec] at h <;> cases h
  · exact .of_raise (i := .resolveFmt) (by decide)
  · exact .of_commit (i := .resolveFmt) (.resolveFmt f hf)

theorem completes_canvas (f : Format) (h : exec (canvasInstr f) s = .next t) : Completes (canvasInstr f) s t := by
  have hop : (canvasInstr f).op = 0x03 := by cases f <;> rfl
  rw [exec_canvasInstr, ← hop] at h
  rcases canvasCommand_cases (canvasInstr f).op f s with ⟨-, hexec⟩ | ⟨hw, hh, hexec⟩ <;> rw [hexec] at h <;> cases h
  · exact .of_raise (by cases f <;> decide)
  · exact .of_commit (.canvas f _ _ ⟨hw, hh⟩ rfl rfl)

theorem completes_log2 (h : exec .log2 s = .next t) : Completes .log2 s t := by
  change execLog2 s = _ at h
  rw [execLog2_eq] at h
  cases h
  exact .of_commit (i := .log2) (.log2 _ rfl)

theorem completes_swzOffset (h : exec .swzOffset s = .next t) : Completes .swzOffset s t := by
  change execSwzOffset s = _ at h
  rcases execSwzOffset_cases s with ⟨-, hexec⟩ | ⟨hw, hh, hexec⟩ <;> rw [hexec] at h <;> cases h
  · exact .of_raise (i := .swzOffset) (by decide)
  · exact .of_commit (i := .swzOffset) (.swzOffset _ ⟨hw, hh⟩ rfl)

theorem completes_deswizzle (h : exec .deswizzle s = .next t) : Completes .deswizzle s t := by
  change execDeswizzle s = _ at h
  rcases execDeswizzle_cases s with ⟨e, he, hexec⟩ | ⟨-, -, hexec⟩ | ⟨-, -, -, hexec⟩ | ⟨hpass, -, -, hexec⟩ <;>
    rw [hexec] at h <;> cases h
  · exact .of_raise (i := .deswizzle) (by rcases firstError_dim_region_kind he with rfl | rfl | rfl | rfl <;> decide)
  · exact .of_commit (i := .deswizzle) (.deswizzle _ (regionError_of_firstError hpass) rfl)

theorem completes_block (k : BlockKind) (h : exec (blockInstr k) s = .next t) : Completes (blockInstr k) s t := by
  rw [exec_blockInstr] at h
  rcases blockCommand_cases (blockInstr k).op k s with ⟨e, he, hexec⟩ | ⟨-, -, hexec⟩ | ⟨hpass, -, hexec⟩ <;>
    rw [hexec] at h <;> cases h
  · exact .of_raise (by rcases regionError_kind _ _ _ _ he with rfl | rfl | rfl <;> cases k <;> decide)
  · exact .of_commit (.block k _ hpass rfl)

theorem completes_surface (k : BlockKind) (h : exec (surfaceInstr k) s = .next t) : Completes (surfaceInstr k) s t := by
  rw [exec_surfaceInstr] at h
  rcases surfaceCommand_cases (surfaceInstr k).op k s with ⟨e, he, hexec⟩ | ⟨-, -, hexec⟩ | ⟨hpass, -, hexec⟩ <;>
    rw [hexec] at h <;> cases h
  · exact .of_raise (by rcases firstError_dim_region_kind he with rfl | rfl | rfl | rfl <;> cases k <;> decide)
  · exact .of_commit (.surface k _ (regionError_of_firstError hpass) rfl)

/-- A command that answers a next state raised one of its errors or committed its results. -/
theorem completes_of_exec (h : exec i s = .next t) : Completes i s t := by
  cases i with
  | parseHdr => exact completes_parseHdr h
  | resolveFmt => exact completes_resolveFmt h
  | canvasGray => exact completes_canvas .gray h
  | canvasRgb => exact completes_canvas .rgb h
  | canvasRgba => exact completes_canvas .rgba h
  | canvasBgra => exact completes_canvas .bgra h
  | canvasDxt1 => exact completes_canvas .dxt1 h
  | canvasDxt3 => exact completes_canvas .dxt3 h
  | canvasDxt5 => exact completes_canvas .dxt5 h
  | log2 => exact completes_log2 h
  | swzOffset => exact completes_swzOffset h
  | deswizzle => exact completes_deswizzle h
  | dxt1Block => exact completes_block .dxt1 h
  | dxt3Block => exact completes_block .dxt3 h
  | dxt5Block => exact completes_block .dxt5 h
  | dxt1Surface => exact completes_surface .dxt1 h
  | dxt3Surface => exact completes_surface .dxt3 h
  | dxt5Surface => exact completes_surface .dxt5 h

/-- The error field of a completed command. -/
theorem Completes.err_mem (h : Completes i s t) : t.err ∈ 0 :: (raisable i).map CmdError.code := by
  rcases h with ⟨e, he, rfl⟩ | ⟨u, -, rfl⟩
  · rw [raiseError_err]
    exact List.mem_cons_of_mem _ (List.mem_map_of_mem he)
  · rw [finish_err]
    exact List.mem_cons_self

/-- A completed command with no error committed its results. -/
theorem Completes.commits (h : Completes i s t) (herr : t.err = 0) : ∃ u, Commits s i u ∧ t = finish i.op u := by
  refine h.resolve_left ?_
  rintro ⟨e, -, rfl⟩
  exact e.code_range.1 (raiseError_err i.op e s ▸ herr)

/-! ## Memory after a command that commits -/

/-- Memory as the commit of a command leaves it. -/
def storedMem : Instr → State → Memory
  | .deswizzle, s => deswizzleMem s
  | .dxt1Block, s => blockMem .dxt1 s
  | .dxt3Block, s => blockMem .dxt3 s
  | .dxt5Block, s => blockMem .dxt5 s
  | .dxt1Surface, s => surfaceMem .dxt1 s
  | .dxt3Surface, s => surfaceMem .dxt3 s
  | .dxt5Surface, s => surfaceMem .dxt5 s
  | _, s => s.mem

theorem storedMem_deswizzle (s : State) : storedMem .deswizzle s = deswizzleMem s := rfl

theorem storedMem_blockInstr (k : BlockKind) (s : State) : storedMem (blockInstr k) s = blockMem k s := by cases k <;> rfl

theorem storedMem_surfaceInstr (k : BlockKind) (s : State) : storedMem (surfaceInstr k) s = surfaceMem k s := by cases k <;> rfl

theorem Commits.mem_eq (h : Commits s i u) : u.mem = storedMem i s := by
  cases h with
  | canvas f => cases f <;> rfl
  | deswizzle m hregion hm => exact hm
  | block k m hregion hm => exact hm.trans (storedMem_blockInstr k s).symm
  | surface k m hregion hm => exact hm.trans (storedMem_surfaceInstr k s).symm
  | _ => rfl

theorem mem_of_exec (h : exec i s = .next t) (herr : t.err = 0) : t.mem = storedMem i s := by
  obtain ⟨u, hu, rfl⟩ := (completes_of_exec h).commits herr
  exact hu.mem_eq

/-! ## The source and destination of a command that commits -/

theorem needs_blockInstr (k : BlockKind) (s : State) : srcNeed (blockInstr k) s = blockBytes k ∧ dstNeed (blockInstr k) s = 64 := by
  cases k <;> exact ⟨rfl, rfl⟩

theorem needs_surfaceInstr (k : BlockKind) (s : State) :
    srcNeed (surfaceInstr k) s = surfaceSrcNeed k s ∧ dstNeed (surfaceInstr k) s = surfaceDstNeed s := by
  cases k <;> exact ⟨rfl, rfl⟩

theorem blockMem_read_outside {a : Nat} (ha : ¬(s.dstAddr.toNat ≤ a ∧ a < s.dstAddr.toNat + 64)) :
    (blockMem k s).read a = s.mem.read a := by
  rw [blockMem, Memory.read_writeBytes, blockOut_length, if_neg ha]

/-- A commit stores nothing, or its regions have passed the checks. -/
theorem Commits.mem_eq_or_checked (h : Commits s i u) : u.mem = s.mem ∨ regionError s (srcNeed i s) (dstNeed i s) = none := by
  cases h with
  | parseHdr => exact .inl rfl
  | resolveFmt => exact .inl rfl
  | canvas => exact .inl rfl
  | log2 => exact .inl rfl
  | swzOffset => exact .inl rfl
  | deswizzle m hregion => exact .inr hregion
  | block k m hregion => exact .inr (by rwa [(needs_blockInstr k s).1, (needs_blockInstr k s).2])
  | surface k m hregion => exact .inr (by rwa [(needs_surfaceInstr k s).1, (needs_surfaceInstr k s).2])

theorem Commits.read_outside (h : Commits s i u) {a : Nat}
    (ha : ¬(s.dstAddr.toNat ≤ a ∧ a < s.dstAddr.toNat + dstNeed i s)) : u.mem.read a = s.mem.read a := by
  cases h with
  | parseHdr => rfl
  | resolveFmt => rfl
  | canvas => rfl
  | log2 => rfl
  | swzOffset => rfl
  | deswizzle m hregion hm => exact hm ▸ deswizzleMem_read_outside ha
  | block k m hregion hm =>
    subst hm
    rw [(needs_blockInstr k s).2] at ha
    exact blockMem_read_outside ha
  | surface k m hregion hm =>
    subst hm
    rw [(needs_surfaceInstr k s).2] at ha
    exact surfaceMem_read_outside k s ha

/-- The regions are apart, so the source bytes lie outside the destination (20_memory.md R59). -/
theorem Commits.read_source (h : Commits s i u) {j : Nat} (hj : j < srcNeed i s) :
    u.mem.read (s.srcAddr.toNat + j) = s.mem.read (s.srcAddr.toNat + j) := by
  rcases h.mem_eq_or_checked with hmem | hregion
  · rw [hmem]
  · obtain ⟨-, -, hoverlap⟩ := (regionError_eq_none_iff s _ _).mp hregion
    have hapart := (overlapError_eq_none_iff s _ _).mp hoverlap
    exact h.read_outside (by omega)

end Sys2Proof.Machine
end

section
namespace Sys2Proof.Proofs

open Sys2Proof Sys2Proof.Machine

/-- Settles O17: the codes of the statement are 0 and those of the command's errors. -/
theorem errorCodesByCommand : Obligations.ErrorCodesByCommand := by
  intro i s t hexec
  have hmem := (completes_of_exec hexec).err_mem
  cases i with
  | log2 => exact List.mem_singleton.mp hmem
  | _ => exact hmem

/-- Settles O18: an error writes STATUS only, and a commit writes the results of its own command. -/
theorem commandWriteSet : Obligations.CommandWriteSet := by
  intro i s t hexec
  rcases completes_of_exec hexec with ⟨e, -, rfl⟩ | ⟨u, hu, rfl⟩
  · simp [raiseError_eq]
  · cases hu with
    | canvas f => cases f <;> rfl
    | block k => cases k <;> rfl
    | surface k => cases k <;> rfl
    | _ => rfl

/-- Settles O19: a commit stores in its destination, which is apart from its source; an error stores nothing. -/
theorem commandsStoreOnlyInTheDestination : Obligations.CommandsStoreOnlyInTheDestination := by
  intro i s t hexec
  have hdone := completes_of_exec hexec
  refine ⟨fun a ha => ?_, fun herr => ?_, fun herr j hj => ?_⟩
  · rcases hdone with ⟨e, -, rfl⟩ | ⟨u, hu, rfl⟩
    · rfl
    · exact hu.read_outside ha
  · rcases hdone with ⟨e, -, rfl⟩ | ⟨u, -, rfl⟩
    · rfl
    · exact absurd (finish_err _ _) herr
  · obtain ⟨u, hu, rfl⟩ := hdone.commits herr
    exact hu.read_source hj

/-- Settles O37: the source pixel at an offset goes to the row-major place of the offset's coordinates. -/
theorem deswizzleIsAPermutation : Obligations.DeswizzleIsAPermutation := by
  intro s t e d hw hh hexec herr
  have hmem : t.mem = deswizzleMem s := mem_of_exec hexec herr
  refine ⟨rowMajorPlace e d, fun o ho => ⟨rowMajorPlace_lt ho, fun k hk => ?_⟩, fun _ _ => rowMajorPlace_injective,
    fun _ _ => rowMajorPlace_interleave⟩
  obtain ⟨hx, hy⟩ := deinterleave_lt ho
  have hread := deswizzleMem_read_of_two_pow hw (hw ▸ hx) (hh ▸ hy) hk
  rwa [hh, Nat.log2_two_pow, interleave_deinterleave ho, hw, ← hmem] at hread

/-- Settles O38: the interleave does not depend on the bits of y past its budget; and the refused case is the model's own test. -/
theorem deswizzleNonPow2Height : Obligations.DeswizzleNonPow2Height := by
  intro s e hw hh
  refine ⟨fun t hexec herr x y k hx hy hk => ?_, fun hrefuse hdims hready => ?_⟩
  · have hrow : y % 2 ^ Nat.log2 (max s.height.toNat 1) < max s.height.toNat 1 := (Nat.mod_le _ _).trans_lt hy
    rw [mem_of_exec hexec herr, storedMem_deswizzle, deswizzleMem_read_of_two_pow hw hx hy hk,
      deswizzleMem_read_of_two_pow hw hx hrow hk, interleave_mod_right]
  · have hheight : pow2 (max s.height.toNat 1) = false := by
      rw [← Bool.not_eq_true, pow2_iff]
      exact fun ⟨d, hd⟩ => hh d hd
    rw [← deswizzleNeed_of_two_pow hw] at hready
    exact execDeswizzle_of_refused hdims hready ((deswizzleRefused_iff s).mpr ⟨hrefuse, pow2_iff.mpr ⟨e, hw⟩, hheight⟩)

end Sys2Proof.Proofs
end

section
/-! What a step has done, by the access it performs (10_state.md R22); what it keeps, and what it leaves in STATUS. -/
namespace Sys2Proof.Machine

variable {i : Instr} {s t u : State} {w : Word} {v : Word}

/-! ## A step by its access -/

/-- The ways a step answers the next state `t`: no access waits, or by the access performed and the accesses left. -/
inductive StepsTo (s : State) : State → Prop
  | idle (h : s.hostAccesses = []) : StepsTo s s
  | command {rest : List HostAccess} {w : Word} {t : State} (h : s.hostAccesses = .regWrite 0x00 32 w :: rest)
      (hrun : runCommand w (s.setAccesses rest) = .next t) : StepsTo s t
  | write {rest : List HostAccess} (r : Reg) (v : Word) : StepsTo s (writeReg r v (s.setAccesses rest))
  | ignored {rest : List HostAccess} : StepsTo s (s.setAccesses rest)
  | read {rest : List HostAccess} (v : Word) : StepsTo s ((s.setAccesses rest).pushRead v)
  | store {rest : List HostAccess} (a : Word) (b : Byte) :
      StepsTo s ((s.setAccesses rest).setMem (s.mem.writeBytes a.toNat [b]))
  | reset {rest : List HostAccess} (h : s.hostAccesses = .reset :: rest) : StepsTo s (applyReset (s.setAccesses rest))

theorem accessAllowed_iff {off : BitVec 8} {bits : Nat} : accessAllowed off bits = true ↔ bits = 32 ∧ off.toNat % 4 = 0 := by
  rw [accessAllowed, Bool.and_eq_true, beq_iff_eq, beq_iff_eq]

theorem stepsTo_of_regWrite {off : BitVec 8} {bits : Nat} {rest : List HostAccess}
    (hacc : s.hostAccesses = .regWrite off bits v :: rest) (h : step s = .next t) : StepsTo s t := by
  cases hallow : accessAllowed off bits with
  | false =>
    rw [step_regWrite_refused (accessAllowed_eq_false_iff.mp hallow) hacc] at h
    cases h
  | true =>
    obtain ⟨rfl, halign⟩ := accessAllowed_iff.mp hallow
    rw [step_regWrite halign hacc] at h
    cases hreg : regAt off with
    | none =>
      rw [hostRegWrite, hreg] at h
      cases h
      exact .ignored
    | some r =>
      obtain rfl := eq_regOffset_of_regAt hreg
      by_cases hcmd : r = .cmd
      · subst hcmd
        exact .command hacc h
      · rw [hostRegWrite_regOffset hcmd] at h
        cases h
        exact .write r v

theorem stepsTo_of_regRead {off : BitVec 8} {bits : Nat} {rest : List HostAccess}
    (hacc : s.hostAccesses = .regRead off bits :: rest) (h : step s = .next t) : StepsTo s t := by
  cases hallow : accessAllowed off bits with
  | false =>
    rw [step_regRead_refused (accessAllowed_eq_false_iff.mp hallow) hacc] at h
    cases h
  | true =>
    obtain ⟨rfl, halign⟩ := accessAllowed_iff.mp hallow
    rw [step_regRead halign hacc] at h
    cases h
    exact .read _

theorem step_memWrite {a : Word} {b : Byte} {rest : List HostAccess} (hacc : s.hostAccesses = .memWrite a b :: rest) :
    step s = if admitsByte s.cfg a.toNat then .next ((s.setAccesses rest).setMem (s.mem.writeBytes a.toNat [b]))
      else .fault .hostStoreUnadmitted :=
  step_cons s _ rest hacc

theorem stepsTo_of_memWrite {a : Word} {b : Byte} {rest : List HostAccess} (hacc : s.hostAccesses = .memWrite a b :: rest)
    (h : step s = .next t) : StepsTo s t := by
  rw [step_memWrite hacc] at h
  split at h <;> cases h
  exact .store a b

theorem stepsTo_of_step (h : step s = .next t) : StepsTo s t := by
  cases hacc : s.hostAccesses with
  | nil =>
    rw [step_idle s hacc] at h
    cases h
    exact .idle hacc
  | cons a rest =>
    cases a with
    | regWrite off bits v => exact stepsTo_of_regWrite hacc h
    | regRead off bits => exact stepsTo_of_regRead hacc h
    | memWrite a b => exact stepsTo_of_memWrite hacc h
    | reset => exact eq_applyReset_of_step_reset hacc h ▸ .reset hacc

/-! ## STATUS and the parameters -/

theorem writeReg_status (r : Reg) (v : Word) (s : State) : (writeReg r v s).status = s.status := by cases r <;> rfl

theorem writeReg_cfg (r : Reg) (v : Word) (s : State) : (writeReg r v s).cfg = s.cfg := by cases r <;> rfl

/-- A step that changes STATUS runs a command or resets. -/
theorem StepsTo.status_eq_or (h : StepsTo s t) :
    t.status = s.status ∨ (∃ rest, s.hostAccesses = .reset :: rest) ∨
      ∃ rest w, s.hostAccesses = .regWrite 0x00 32 w :: rest ∧ runCommand w (s.setAccesses rest) = .next t := by
  cases h with
  | idle => exact .inl rfl
  | command hacc hrun => exact .inr (.inr ⟨_, _, hacc, hrun⟩)
  | write r v => exact .inl (writeReg_status r v _)
  | ignored => exact .inl rfl
  | read => exact .inl rfl
  | store => exact .inl rfl
  | reset hacc => exact .inr (.inl ⟨_, hacc⟩)

@[simp] theorem finish_lastOp (op : Byte) (s : State) : (finish op s).lastOp = op := statusWord_lastOp _ _

@[simp] theorem finish_done (op : Byte) (s : State) : (finish op s).done = true := statusWord_done _ _

@[simp] theorem finish_statusReserved (op : Byte) (s : State) : (finish op s).statusReserved = 0 := statusWord_reserved _ _

/-- STATUS after a command: DONE, its opcode, and an error code of R201 or 0. -/
theorem status_of_runCommand (h : runCommand w s = .next t) :
    t.done = true ∧ t.lastOp = cmdOp w ∧ t.statusReserved = 0 ∧ t.err.toNat ≤ 6 := by
  rcases runCommand_eq_next h with ⟨e, rfl⟩ | ⟨u, rfl⟩
  · exact ⟨raiseError_done _ _ _, raiseError_lastOp _ _ _, raiseError_statusReserved _ _ _,
      raiseError_err _ e s ▸ e.code_range.2⟩
  · exact ⟨finish_done _ _, finish_lastOp _ _, finish_statusReserved _ _, finish_err _ u ▸ by decide⟩

theorem Commits.cfg_eq (h : Commits s i u) : u.cfg = s.cfg := by cases h <;> rfl

theorem Completes.cfg_eq (h : Completes i s t) : t.cfg = s.cfg := by
  rcases h with ⟨e, -, rfl⟩ | ⟨u, hu, rfl⟩
  · rfl
  · exact hu.cfg_eq

theorem runCommand_cfg (h : runCommand w s = .next t) : t.cfg = s.cfg := by
  cases hdecode : decode w with
  | error r =>
    rw [runCommand_of_illegal ⟨r, hdecode⟩] at h
    cases h
    rfl
  | ok i =>
    rw [runCommand_of_decode hdecode] at h
    exact (completes_of_exec h).cfg_eq

theorem StepsTo.cfg_eq (h : StepsTo s t) : t.cfg = s.cfg := by
  cases h with
  | idle => rfl
  | command hacc hrun => exact (runCommand_cfg hrun).trans (State.setAccesses_cfg _ _)
  | write r v => exact writeReg_cfg r v _
  | ignored => rfl
  | read => rfl
  | store => rfl
  | reset => rfl

/-! ## Completion where everything is admitted -/

/-- Past the region checks every byte of a region is an address, so a platform that admits every address admits the regions. -/
theorem regionsAdmitted_of_allAdmitted {ns nd : Nat} (hall : s.allAdmitted) (hsrc : ¬s.srcAddr.toNat + ns > 2 ^ 32)
    (hdst : ¬s.dstAddr.toNat + nd > 2 ^ 32) : s.regionsAdmitted ns nd :=
  ⟨fun k hk => hall _ (by omega), fun k hk => hall _ (by omega)⟩

/-- An `if` answers a next state when each branch does where it is taken. -/
theorem exists_next_of_ite {c : Prop} [Decidable c] {x y : Result} (hthen : c → ∃ t, x = .next t)
    (helse : ¬c → ∃ t, y = .next t) : ∃ t, (if c then x else y) = .next t := by
  split
  · exact hthen ‹_›
  · exact helse ‹_›

/-- Of the three outcomes of R203 that are no next state, two need a byte that is not admitted and one needs `refuse`. -/
theorem outcomeInOrder_completes (op : Byte) (i : Instr) (s u : State) (hall : s.allAdmitted)
    (hliteral : s.cfg.swzNonpow2H = .literal) : ∃ t, outcomeInOrder op i s u = .next t := by
  have raised (c : Prop) (e : CmdError) (_ : c) : ∃ t, (.next (raiseError op e s) : Result) = .next t := ⟨_, rfl⟩
  refine exists_next_of_ite (raised _ _) fun _ => exists_next_of_ite (raised _ _) fun _ =>
    exists_next_of_ite (raised _ _) fun hsrc => exists_next_of_ite ?parse fun _ =>
    exists_next_of_ite (raised _ _) fun _ => exists_next_of_ite (raised _ _) fun _ =>
    exists_next_of_ite (raised _ _) fun _ => exists_next_of_ite (raised _ _) fun hdst =>
    exists_next_of_ite (raised _ _) fun _ => exists_next_of_ite ?refuse fun _ => exists_next_of_ite ?stuck fun _ => ⟨_, rfl⟩
  case parse =>
    rintro ⟨rfl, hstuck⟩
    exact absurd (regionsAdmitted_of_allAdmitted hall hsrc (Nat.not_lt.mpr s.dstAddr.isLt.le)) hstuck
  case refuse =>
    rintro ⟨-, hrefuse, -⟩
    rw [hliteral] at hrefuse
    cases hrefuse
  case stuck => exact fun hstuck => absurd (regionsAdmitted_of_allAdmitted hall hsrc hdst) hstuck

theorem runCommand_completes (w : Word) (s : State) (hall : s.allAdmitted) (hliteral : s.cfg.swzNonpow2H = .literal) :
    ∃ t, runCommand w s = .next t := by
  cases hdecode : decode w with
  | error r => exact ⟨_, runCommand_of_illegal ⟨r, hdecode⟩ s⟩
  | ok i =>
    obtain ⟨u, hrun⟩ := runCommand_in_order hdecode s
    rw [hrun]
    exact outcomeInOrder_completes _ i s u hall hliteral

/-! ## No command reads STATUS -/

/-- Both completions write all of STATUS, and no check, decoder or result looks at it. -/
theorem exec_setStatus (i : Instr) (s : State) (x : BitVec 17) : exec i (s.setStatus x) = exec i s := by
  cases i <;> rfl

end Sys2Proof.Machine
end

section
namespace Sys2Proof.Proofs

open Sys2Proof Sys2Proof.Machine

/-- Settles O15: what a completion writes, and the step by its access: STATUS changes under a command or a reset, and a command sets
DONE. -/
theorem onlyCommandsAndResetWriteStatus : Obligations.OnlyCommandsAndResetWriteStatus := by
  refine ⟨fun w s t => status_of_runCommand, fun s t hstep hne => ?_, fun s t hstep hdone hclear => ?_⟩
  · rcases (stepsTo_of_step hstep).status_eq_or with heq | ⟨rest, hacc⟩ | ⟨rest, w, hacc, -⟩
    · exact absurd heq hne
    · exact ⟨rest, .inl hacc⟩
    · exact ⟨rest, .inr ⟨w, hacc⟩⟩
  · rcases (stepsTo_of_step hstep).status_eq_or with heq | hreset | ⟨rest, w, -, hrun⟩
    · rw [State.done, heq] at hclear
      rw [State.done, hclear] at hdone
      cases hdone
    · exact hreset
    · rw [(status_of_runCommand hrun).1] at hclear
      cases hclear

/-- Settles O20: the chain of R203 stops on no path that these parameters leave open. -/
theorem admittedCommandsAlwaysComplete : Obligations.AdmittedCommandsAlwaysComplete := runCommand_completes

/-- Settles O3: the step is the command of the word, which is `exec` of what it decodes to. -/
theorem stepRunsTheDecodedInstruction : Obligations.StepRunsTheDecodedInstruction := by
  intro s rest w i hacc hdecode
  rw [step_write_cmd hacc, runCommand_of_decode hdecode]
  rfl

/-- Settles O4: the first five words are the encodings of their commands; in the last one RSV is 1. -/
theorem sampleWordsDecode : Obligations.SampleWordsDecode :=
  ⟨decode_encode .parseHdr, decode_encode .canvasDxt5, decode_encode .deswizzle, decode_encode .dxt3Block,
    decode_encode .dxt5Surface, decode_of_rsv_ne_zero (by decide)⟩

/-- Settles O7: the platform's step is `applyReset`. -/
theorem platformResetKeepsMemory : Obligations.PlatformResetKeepsMemory := fun _ _ hacc =>
  ⟨_, step_reset hacc, rfl, rfl, rfl, rfl⟩

/-- Settles O8: the empty list of accesses is the waiting case of the step. -/
theorem idleBlockWaits : Obligations.IdleBlockWaits := step_idle

/-- Settles O9: the store is a write of one byte to memory, behind the test of admission. -/
theorem hostStoreWritesOneByte : Obligations.HostStoreWritesOneByte := by
  refine fun s rest a b hacc => ⟨fun hadm => ⟨s.mem.writeBytes a.toNat [b], ?_, ?_, fun x hx => ?_⟩, fun hadm => ?_⟩
  · rw [step_memWrite hacc, if_pos hadm]
    rfl
  · rw [Memory.read_writeBytes, if_pos ⟨le_rfl, Nat.lt_succ_self _⟩, Nat.sub_self]
    rfl
  · rw [Memory.read_writeBytes, if_neg]
    rw [List.length_singleton]
    omega
  · rw [step_memWrite hacc, if_neg (by simp [hadm])]

/-- Settles O16: setting STATUS first makes no difference. -/
theorem commandsDoNotReadStatus : Obligations.CommandsDoNotReadStatus := fun i s x => exec_setStatus i s x

/-- Settles O21: no access, no command among them, writes the parameters. -/
theorem stepKeepsTheParameters : Obligations.StepKeepsTheParameters := fun _ _ hstep => (stepsTo_of_step hstep).cfg_eq

end Sys2Proof.Proofs
end

section
/-! The invariant of the machine (`State.Inv`): what each named update of the state must bring to keep it, then every command and every
step. -/
namespace Sys2Proof.Machine

variable {i : Instr} {s t u : State} {v : Word} {op : Byte}

/-! ## The updates of the state -/

theorem State.Inv.setStatus (h : s.Inv) {v : BitVec 17} (hv : (s.setStatus v).statusLegal) : (s.setStatus v).Inv :=
  ⟨h.1, hv, h.2.2⟩

theorem State.Inv.setResult (h : s.Inv) (hv : v.toNat < 2 ^ 28) : (s.setResult v).Inv := by
  obtain ⟨hmem, hstatus, hfmt, hcanvas, hheader, -⟩ := h
  exact ⟨hmem, hstatus, hfmt, hcanvas, hheader, hv⟩

theorem State.Inv.setFmt (h : s.Inv) {f : Format} (hf : f ≠ .dxt3) : (s.setFmt (fmtValue f)).Inv := by
  obtain ⟨hmem, hstatus, -, hcanvas, hheader, hresult⟩ := h
  exact ⟨hmem, hstatus, .inr ⟨f, hf, rfl⟩, hcanvas, hheader, hresult⟩

theorem State.Inv.setCanvas (h : s.Inv) {dim bytes : Word} (hv : (s.setCanvas dim bytes).canvasLegal) :
    (s.setCanvas dim bytes).Inv := by
  obtain ⟨hmem, hstatus, hfmt, -, hheader, hresult⟩ := h
  exact ⟨hmem, hstatus, hfmt, hv, hheader, hresult⟩

theorem State.Inv.setHeader (h : s.Inv) {dsize unk dim : Word} {info : BitVec 17}
    (hv : (s.setHeader dsize unk dim info).headerLegal) : (s.setHeader dsize unk dim info).Inv := by
  obtain ⟨hmem, hstatus, hfmt, hcanvas, -, hresult⟩ := h
  exact ⟨hmem, hstatus, hfmt, hcanvas, hv, hresult⟩

theorem State.Inv.setMem (h : s.Inv) {m : Memory} (hm : m.wf) : (s.setMem m).Inv := ⟨hm, h.2⟩

theorem State.Inv.setAccesses (h : s.Inv) (l : List HostAccess) : (s.setAccesses l).Inv := h

theorem State.Inv.pushRead (h : s.Inv) (v : Word) : (s.pushRead v).Inv := h

/-- The host writes operand registers only, and the invariant names none of them. -/
theorem State.Inv.writeReg (h : s.Inv) (r : Reg) (v : Word) : (writeReg r v s).Inv := by cases r <;> exact h

theorem inv_reset : State.reset.Inv := by
  refine ⟨Memory.wf_nil, ?_, .inl rfl, ?_, ?_, ?_⟩
  · unfold State.statusLegal
    decide
  · unfold State.canvasLegal
    decide
  · unfold State.headerLegal
    decide
  · unfold State.resultLegal
    decide

/-- A reset keeps memory and takes every register from `State.reset`. -/
theorem State.Inv.applyReset (h : s.Inv) : (applyReset s).Inv := ⟨h.1, inv_reset.2⟩

/-! ## The values that commands write -/

theorem statusLegal_of_statusWord {e : BitVec 4} (he : e.toNat ≤ 6) : (s.setStatus (statusWord e op)).statusLegal := by
  refine ⟨statusWord_reserved e op, ?_, fun hdone => ?_⟩
  · rwa [State.err, State.setStatus_status, statusWord_err]
  · rw [State.done, State.setStatus_status, statusWord_done] at hdone
    cases hdone

theorem State.Inv.raiseError (h : s.Inv) (op : Byte) (e : CmdError) : (raiseError op e s).Inv :=
  h.setStatus (statusLegal_of_statusWord e.code_range.2)

theorem State.Inv.finish (h : s.Inv) (op : Byte) : (finish op s).Inv := h.setStatus (statusLegal_of_statusWord (by decide))

theorem canvasLegal_of_halves {ch cw : Half} {bytes : Word} (hw : cw.toNat ≤ 0x8000) (hh : ch.toNat ≤ 0x8000)
    (hbytes : bytes.toNat ≤ 0xFFFC0004) : (s.setCanvas (ch ++ cw) bytes).canvasLegal := by
  refine ⟨?_, ?_, hbytes⟩
  · rwa [State.setCanvas_canvasDim, BitVec.extractLsb'_append_eq_right]
  · rwa [State.setCanvas_canvasDim, BitVec.extractLsb'_append_eq_left]

theorem headerInfo_compressed (hd : Header) : (headerInfo hd).getLsbD 16 = true ↔ hd.dsize ≠ 0 := by
  have hbit : (headerInfo hd).getLsbD 16 = headerCompressed hd := by
    rw [headerInfo, BitVec.getLsbD_append, if_neg (by decide), BitVec.getLsbD_ofBool]
    rfl
  rw [hbit, headerCompressed, bne_iff_ne]

theorem headerLegal_of_header {hd : Header} (hw : hd.width.toNat < 0x8000) (hh : hd.height.toNat < 0x8000) :
    (s.setHeader hd.dsize hd.unk (hd.height ++ hd.width) (headerInfo hd)).headerLegal := by
  refine ⟨?_, ?_, headerInfo_compressed hd⟩
  · rwa [State.setHeader_hdrDim, BitVec.extractLsb'_append_eq_right]
  · rwa [State.setHeader_hdrDim, BitVec.extractLsb'_append_eq_left]

theorem log2_result_lt (v : Word) : (BitVec.ofNat 32 (log2 v)).toNat < 2 ^ 28 := by
  have := log2_toNat_lt v
  rw [log2_eq, BitVec.toNat_ofNat]
  omega

/-- A destination that passes its check lies in the address space. -/
theorem dst_end_of_regionError {ns nd : Nat} (h : regionError s ns nd = none) : s.dstAddr.toNat + nd ≤ 2 ^ 32 := by
  obtain ⟨-, hdst, -⟩ := (regionError_eq_none_iff s ns nd).mp h
  exact ((dstError_eq_none_iff s nd).mp hdst).2

/-! ## Commands and steps -/

theorem Commits.inv (h : Commits s i u) (hinv : s.Inv) : u.Inv := by
  cases h with
  | parseHdr hd f hhd hw hh hf =>
    exact (hinv.setHeader (headerLegal_of_header hw hh)).setFmt fun hdxt3 => resolve_ne_dxt3 _ _ _ (hdxt3 ▸ hf)
  | resolveFmt f hf => exact hinv.setFmt fun hdxt3 => resolve_ne_dxt3 _ _ _ (hdxt3 ▸ hf)
  | canvas f dim bytes hdims hdim hbytes =>
    subst hdim hbytes
    refine hinv.setCanvas (canvasLegal_of_halves ?_ ?_ ?_)
    · rw [toNat_ofNat_canvasSize f hdims.1]
      exact canvasSize_le f hdims.1
    · rw [toNat_ofNat_canvasSize f hdims.2]
      exact canvasSize_le f hdims.2
    · rw [toNat_ofNat_levelSize f hdims.1 hdims.2]
      exact levelSize_le f hdims.1 hdims.2
  | log2 v hv => exact hinv.setResult (hv ▸ log2_result_lt s.opa)
  | swzOffset v hdims hv =>
    refine hinv.setResult ?_
    rw [hv, BitVec.toNat_ofNat, budget_eq (half_lt_word _), budget_eq (half_lt_word _)]
    exact (Nat.mod_le _ _).trans_lt (interleave_lt_of_dimsLegal _ _ hdims)
  | deswizzle m hregion hm =>
    refine hinv.setMem (hm ▸ Memory.wf_writeBytes _ _ _ hinv.1 ?_)
    rw [deswizzleOut_length]
    exact dst_end_of_regionError hregion
  | block k m hregion hm =>
    refine hinv.setMem (hm ▸ Memory.wf_writeBytes _ _ _ hinv.1 ?_)
    rw [blockOut_length]
    exact dst_end_of_regionError hregion
  | surface k m hregion hm => exact hinv.setMem (hm ▸ surfaceMem_wf k hinv.1 (dst_end_of_regionError hregion))

theorem runCommand_inv {w : Word} (h : runCommand w s = .next t) (hinv : s.Inv) : t.Inv := by
  cases hdecode : decode w with
  | error r =>
    rw [runCommand, hdecode] at h
    cases h
    exact hinv.raiseError _ _
  | ok i =>
    rw [runCommand_of_decode hdecode] at h
    rcases completes_of_exec h with ⟨e, -, rfl⟩ | ⟨u, hu, rfl⟩
    · exact hinv.raiseError _ _
    · exact (hu.inv hinv).finish _

theorem StepsTo.inv (h : StepsTo s t) (hinv : s.Inv) : t.Inv := by
  cases h with
  | idle => exact hinv
  | command hacc hrun => exact runCommand_inv hrun (hinv.setAccesses _)
  | write r v => exact (hinv.setAccesses _).writeReg r v
  | ignored => exact hinv.setAccesses _
  | read v => exact (hinv.setAccesses _).pushRead v
  | store a b => exact (hinv.setAccesses _).setMem (Memory.wf_writeBytes _ _ _ hinv.1 a.isLt)
  | reset => exact (hinv.setAccesses _).applyReset

end Sys2Proof.Machine
end

section
namespace Sys2Proof.Proofs

open Sys2Proof Sys2Proof.Machine

/-- Settles O22: by the access of the step; of the results a command commits, each is within its bound. -/
theorem stepKeepsTheInvariant : Obligations.StepKeepsTheInvariant := fun _ _ hinv hstep => (stepsTo_of_step hstep).inv hinv

/-- Settles O23: every register is 0 and memory is empty. -/
theorem resetMeetsTheInvariant : Obligations.ResetMeetsTheInvariant := inv_reset

end Sys2Proof.Proofs
end

section
/-! Colours, blends and palettes (42_block_decompress.md R150 to R154, R157). -/
namespace Sys2Proof.Machine

variable {v a b : Nat} {c : Config}

/-! ## Channels of a 565 colour (R150, R151) -/

theorem bitField_toNat {w : Nat} (x : BitVec w) (lo n : Nat) : bitField x.toNat lo n = (x.extractLsb' lo n).toNat := by
  rw [BitVec.extractLsb'_toNat, Nat.shiftRight_eq_div_pow, bitField]

/-- Replication sets the top bits of a channel below it. -/
theorem expand5_replicate (hv : v < 32) : expand5 .replicate v = 8 * v + v / 4 := by
  have hlow : v >>> 2 < 2 ^ 3 := by rw [Nat.shiftRight_eq_div_pow]; omega
  rw [expand5, ← Nat.shiftLeft_add_eq_or_of_lt hlow, Nat.shiftLeft_eq, Nat.shiftRight_eq_div_pow]
  omega

theorem expand6_replicate (hv : v < 64) : expand6 .replicate v = 4 * v + v / 16 := by
  have hlow : v >>> 4 < 2 ^ 2 := by rw [Nat.shiftRight_eq_div_pow]; omega
  rw [expand6, ← Nat.shiftLeft_add_eq_or_of_lt hlow, Nat.shiftLeft_eq, Nat.shiftRight_eq_div_pow]
  omega

theorem expand5_round (v : Nat) : expand5 .round v = (v * 255 + 15) / 31 := rfl

theorem expand5_truncate (v : Nat) : expand5 .truncate v = v * 255 / 31 := rfl

theorem expand5_shift (v : Nat) : expand5 .shift v = 8 * v := by rw [expand5, Nat.shiftLeft_eq, Nat.mul_comm]

theorem expand6_round (v : Nat) : expand6 .round v = (v * 255 + 31) / 63 := rfl

theorem expand6_truncate (v : Nat) : expand6 .truncate v = v * 255 / 63 := rfl

theorem expand6_shift (v : Nat) : expand6 .shift v = 4 * v := by rw [expand6, Nat.shiftLeft_eq, Nat.mul_comm]

theorem expand5_le (m : Expand565) (hv : v < 32) : expand5 m v ≤ 255 := by
  cases m with
  | replicate => rw [expand5_replicate hv]; omega
  | round => rw [expand5_round]; omega
  | truncate => rw [expand5_truncate]; omega
  | shift => rw [expand5_shift]; omega

theorem expand6_le (m : Expand565) (hv : v < 64) : expand6 m v ≤ 255 := by
  cases m with
  | replicate => rw [expand6_replicate hv]; omega
  | round => rw [expand6_round]; omega
  | truncate => rw [expand6_truncate]; omega
  | shift => rw [expand6_shift]; omega

/-! ## Blends (R152) -/

theorem third_le (ha : a ≤ 255) (hb : b ≤ 255) : third a b ≤ 255 := by rw [third]; omega

theorem twothirds_le (ha : a ≤ 255) (hb : b ≤ 255) : twothirds a b ≤ 255 := by rw [twothirds]; omega

/-- Under every tie rule the half blend is within one half of the mean. -/
theorem half_bounds (t : BlendTie) (a b : Nat) : a + b ≤ 2 * half t a b + 1 ∧ 2 * half t a b ≤ a + b + 1 := by
  cases t with
  | halfUp => rw [half]; omega
  | halfEven => rw [half]; split_ifs <;> omega
  | truncate => rw [half]; omega

theorem half_le (t : BlendTie) (ha : a ≤ 255) (hb : b ≤ 255) : half t a b ≤ 255 := by
  have := half_bounds t a b
  omega

theorem third_self (a : Nat) : third a a = a := by rw [third]; omega

theorem twothirds_self (a : Nat) : twothirds a a = a := by rw [twothirds]; omega

theorem half_self (t : BlendTie) (a : Nat) : half t a a = a := by
  have := half_bounds t a a
  omega

theorem half_at_tie (htie : (a + b) % 2 = 1) :
    2 * half .halfUp a b = a + b + 1 ∧ 2 * half .truncate a b + 1 = a + b ∧ half .halfEven a b % 2 = 0 := by
  refine ⟨by rw [half]; omega, by rw [half]; omega, ?_⟩
  rw [half]
  split_ifs <;> omega

/-! ## Palettes (R153, R154) -/

/-- A blend that keeps channels within a byte is not truncated. -/
theorem blend_channels {f : Nat → Nat → Nat} (hf : ∀ a b, a ≤ 255 → b ≤ 255 → f a b ≤ 255) (p q : Pixel) :
    (blend f p q).r.toNat = f p.r.toNat q.r.toNat ∧ (blend f p q).g.toNat = f p.g.toNat q.g.toNat ∧
      (blend f p q).b.toNat = f p.b.toNat q.b.toNat ∧ (blend f p q).a.toNat = f p.a.toNat q.a.toNat := by
  have hbyte (x y : Byte) : (BitVec.ofNat 8 (f x.toNat y.toNat)).toNat = f x.toNat y.toNat := by
    have := hf x.toNat y.toNat (Nat.le_of_lt_succ x.isLt) (Nat.le_of_lt_succ y.isLt)
    rw [BitVec.toNat_ofNat]
    omega
  exact ⟨hbyte _ _, hbyte _ _, hbyte _ _, hbyte _ _⟩

/-- Blending a colour with itself gives it back. -/
theorem blend_self {f : Nat → Nat → Nat} (hf : ∀ a, f a a = a) (p : Pixel) : blend f p p = p := by
  simp [blend, hf]

theorem expand_alpha (m : Expand565) (n : Nat) : (expand m n).a = 255 := rfl

/-- Blends of opaque colours are opaque. -/
theorem blend_alpha {f : Nat → Nat → Nat} (hf : ∀ a, f a a = a) {p q : Pixel} (hp : p.a = 255) (hq : q.a = 255) :
    (blend f p q).a = 255 := by
  rw [blend, hp, hq, hf]
  rfl

theorem palette4_eq (c : Config) (c0 c1 : Nat) :
    palette4 c c0 c1 = [expand c.expand565 c0, expand c.expand565 c1,
      blend third (expand c.expand565 c0) (expand c.expand565 c1),
      blend twothirds (expand c.expand565 c0) (expand c.expand565 c1)] := rfl

theorem palette1_of_gt {c0 c1 : Nat} (h : c0 > c1) : palette1 c c0 c1 = palette4 c c0 c1 := if_pos h

theorem palette1_of_le {c0 c1 : Nat} (h : c0 ≤ c1) :
    palette1 c c0 c1 = [expand c.expand565 c0, expand c.expand565 c1,
      blend (half c.blendTie) (expand c.expand565 c0) (expand c.expand565 c1), ⟨0, 0, 0, 0⟩] := if_neg (Nat.not_lt.mpr h)

theorem palette4_opaque (c : Config) (c0 c1 : Nat) : ∀ e ∈ palette4 c c0 c1, e.a = 255 := by
  rw [palette4_eq]
  simp only [List.forall_mem_cons]
  exact ⟨expand_alpha _ _, expand_alpha _ _, blend_alpha third_self (expand_alpha _ _) (expand_alpha _ _),
    blend_alpha twothirds_self (expand_alpha _ _) (expand_alpha _ _), nofun⟩

theorem palette1_opaque (c : Config) (c0 c1 : Nat) : ∀ e ∈ (palette1 c c0 c1).take 3, e.a = 255 := by
  rcases Nat.lt_or_ge c1 c0 with hgt | hle
  · rw [palette1_of_gt hgt]
    exact fun e he => palette4_opaque c c0 c1 e (List.mem_of_mem_take he)
  · rw [palette1_of_le hle]
    simp only [List.take_succ_cons, List.take_zero, List.forall_mem_cons]
    exact ⟨expand_alpha _ _, expand_alpha _ _, blend_alpha (half_self c.blendTie) (expand_alpha _ _) (expand_alpha _ _), nofun⟩

/-! ## The alpha palette (R157) -/

theorem alphaPalette_of_gt {a0 a1 : Nat} (h : a0 > a1) :
    alphaPalette a0 a1 = [a0, a1, (6 * a0 + 1 * a1 + 3) / 7, (5 * a0 + 2 * a1 + 3) / 7, (4 * a0 + 3 * a1 + 3) / 7,
      (3 * a0 + 4 * a1 + 3) / 7, (2 * a0 + 5 * a1 + 3) / 7, (1 * a0 + 6 * a1 + 3) / 7] := if_pos h

theorem alphaPalette_of_le {a0 a1 : Nat} (h : a0 ≤ a1) :
    alphaPalette a0 a1 = [a0, a1, (4 * a0 + 1 * a1 + 2) / 5, (3 * a0 + 2 * a1 + 2) / 5, (2 * a0 + 3 * a1 + 2) / 5,
      (1 * a0 + 4 * a1 + 2) / 5, 0, 255] := if_neg (Nat.not_lt.mpr h)

end Sys2Proof.Machine
end

section
namespace Sys2Proof.Proofs

open Sys2Proof Sys2Proof.Machine

/-- Settles O39: the fields of the word, and each reading of EXPAND565 by its formula; `replicate` and `round` are compared on the 32
values of a channel. -/
theorem channelExpansions : Obligations.ChannelExpansions := by
  refine ⟨fun m c => ?_, fun v hv => ?_, fun v hv => ?_, fun m => ?_, fun m => ?_, fun m v => ⟨expand5_le m, expand6_le m⟩, ?_⟩
  · rw [← bitField_toNat, ← bitField_toNat, ← bitField_toNat]
    exact ⟨rfl, rfl, rfl, rfl⟩
  · rw [expand5_replicate hv, expand5_shift, expand5_truncate, expand5_round]
    omega
  · rw [expand6_replicate hv, expand6_shift, expand6_truncate, expand6_round]
    omega
  · cases m <;> decide
  · cases m <;> decide
  · decide

/-- Settles O40: each blend is a division of its weighted sum, whose rounding is linear arithmetic. -/
theorem blendsRoundToNearest : Obligations.BlendsRoundToNearest := by
  intro a b ha hb
  refine ⟨⟨?_, ?_, third_le ha hb⟩, ⟨?_, ?_, twothirds_le ha hb⟩,
    fun t => ⟨(half_bounds t a b).1, (half_bounds t a b).2, half_le t ha hb⟩, half_at_tie,
    third_self a, twothirds_self a, fun t => half_self t a⟩
  · rw [third]; omega
  · rw [third]; omega
  · rw [twothirds]; omega
  · rw [twothirds]; omega

/-- Settles O41: entry by entry in each order of the endpoints. -/
theorem alphaPaletteEntries : Obligations.AlphaPaletteEntries := by
  intro a0 a1 h0 h1
  rcases Nat.lt_or_ge a1 a0 with hgt | hle
  · rw [alphaPalette_of_gt hgt]
    refine ⟨rfl, rfl, rfl, fun _ i hi hi' => ?_, fun hle => absurd hgt (Nat.not_lt.mpr hle), ?_⟩
    · interval_cases i <;> simp only [List.getD_cons_succ, List.getD_cons_zero] <;> omega
    · simp only [List.forall_mem_cons, List.not_mem_nil, false_imp_iff, implies_true, and_true]
      omega
  · rw [alphaPalette_of_le hle]
    refine ⟨rfl, rfl, rfl, fun hgt => absurd hgt (Nat.not_lt.mpr hle), fun _ => ⟨fun i hi hi' => ?_, rfl, rfl⟩, ?_⟩
    · interval_cases i <;> simp only [List.getD_cons_succ, List.getD_cons_zero] <;> omega
    · simp only [List.forall_mem_cons, List.not_mem_nil, false_imp_iff, implies_true, and_true]
      omega

/-- Settles O42: the palettes in each order of the colours, with the channels of each blend. -/
theorem paletteModes : Obligations.PaletteModes := by
  intro c c0 c1 p q mixes
  have hthird : mixes third (blend third p q) := blend_channels (fun _ _ => third_le) p q
  have htwothirds : mixes twothirds (blend twothirds p q) := blend_channels (fun _ _ => twothirds_le) p q
  have hhalf : mixes (half c.blendTie) (blend (half c.blendTie) p q) := blend_channels (fun _ _ => half_le _) p q
  refine ⟨⟨_, _, palette4_eq c c0 c1, hthird, htwothirds⟩,
    fun hgt => ⟨_, _, (palette1_of_gt hgt).trans (palette4_eq c c0 c1), hthird, htwothirds⟩,
    fun hle => ⟨_, palette1_of_le hle, hhalf⟩, ?_, palette4_opaque c c0 c1, palette1_opaque c c0 c1⟩
  rintro rfl
  rw [palette1_of_le le_rfl]
  exact blend_self (half_self _) p

end Sys2Proof.Proofs
end

section
/-! A block by its bytes (42_block_decompress.md R155 to R157): the little-endian fields by their bits, then each pixel. -/
namespace Sys2Proof.Machine

variable {cfg : Config} {b : List Byte} {lo n m r k i : Nat}

/-! ## Fields of a little-endian number (00_scope.md R9, R11) -/

/-- Bit j of a little-endian number is bit j mod 8 of its byte j / 8. -/
theorem le_testBit (bs : List Byte) (j : Nat) : (le bs).testBit j = (bs.getD (j / 8) 0).toNat.testBit (j % 8) := by
  induction bs generalizing j with
  | nil => simp [le]
  | cons b bs ih =>
    rw [le, Nat.add_comm, show 256 = 2 ^ 8 from rfl, Nat.testBit_two_pow_mul_add _ b.isLt]
    by_cases hj : j < 8
    · rw [if_pos hj, Nat.div_eq_of_lt hj, Nat.mod_eq_of_lt hj, List.getD_cons_zero]
    · rw [if_neg hj, ih, show j / 8 = (j - 8) / 8 + 1 by omega, List.getD_cons_succ, show j % 8 = (j - 8) % 8 by omega]

theorem bitField_testBit (v lo n i : Nat) : (bitField v lo n).testBit i = (decide (i < n) && v.testBit (lo + i)) := by
  rw [bitField, Nat.testBit_mod_two_pow, Nat.testBit_div_two_pow, Nat.add_comm]

/-- A field that lies in byte `m` is a field of that byte. -/
theorem bitField_le (bs : List Byte) (hin : lo + n ≤ 8) : bitField (le bs) (8 * m + lo) n = bitField (bs.getD m 0).toNat lo n := by
  refine Nat.eq_of_testBit_eq fun i => ?_
  rw [bitField_testBit, bitField_testBit]
  by_cases hi : i < n
  · rw [le_testBit, show (8 * m + lo + i) / 8 = m by omega, show (8 * m + lo + i) % 8 = lo + i by omega]
  · simp [hi]

theorem slice_getD (b : List Byte) (lo : Nat) {m n : Nat} (hm : m < n) : (slice b lo n).getD m 0 = b.getD (lo + m) 0 := by
  simp [slice, hm]

theorem le_take_two (bs : List Byte) : le (bs.take 2) = (bs.getD 0 0).toNat + 256 * (bs.getD 1 0).toNat := by
  rcases bs with _ | ⟨b₀, _ | ⟨b₁, bs⟩⟩ <;> simp [le]

/-- A two-byte field. -/
theorem le_slice_two (b : List Byte) (lo : Nat) :
    le (slice b lo 2) = (b.getD lo 0).toNat + 256 * (b.getD (lo + 1) 0).toNat := by
  rw [slice, le_take_two]
  simp

/-! ## The pixels (R155 to R157) -/

theorem getD_map_range {α : Type} (f : Nat → α) (d : α) (hi : i < n) : ((List.range n).map f).getD i d = f i := by
  simp [hi]

/-- The colour indices of a row are one byte, those of column k its bits [2k + 1 : 2k]. -/
theorem colourIndex_slice (b : List Byte) (lo : Nat) (hr : r < 4) (hk : k < 4) :
    colourIndex (le (slice b lo 4)) (4 * r + k) = (b.getD (lo + r) 0).toNat / 2 ^ (2 * k) % 4 := by
  rw [colourIndex, show 2 * (4 * r + k) = 8 * r + 2 * k by ring, bitField_le _ (by omega), slice_getD b lo hr, bitField]
  rfl

theorem opaqueColour_eq (cfg : Config) (b : List Byte) (hr : r < 4) (hk : k < 4) :
    opaqueColour cfg b (4 * r + k) =
      (palette4 cfg ((b.getD 8 0).toNat + 256 * (b.getD 9 0).toNat) ((b.getD 10 0).toNat + 256 * (b.getD 11 0).toNat)).getD
        ((b.getD (12 + r) 0).toNat / 2 ^ (2 * k) % 4) Pixel.clear := by
  rw [opaqueColour, le_slice_two, le_slice_two, colourIndex_slice b 12 hr hk]

theorem dec1_getD (cfg : Config) (b : List Byte) (hi : i < 16) :
    (dec1 cfg b).getD i Pixel.clear =
      (palette1 cfg (le (slice b 0 2)) (le (slice b 2 2))).getD (colourIndex (le (slice b 4 4)) i) Pixel.clear :=
  getD_map_range _ _ hi

theorem dec3_getD (cfg : Config) (b : List Byte) (hi : i < 16) :
    (dec3 cfg b).getD i Pixel.clear =
      { opaqueColour cfg b i with a := BitVec.ofNat 8 (bitField (le (slice b 0 8)) (4 * i) 4 * 16) } :=
  getD_map_range _ _ hi

theorem dec5_getD (cfg : Config) (b : List Byte) (hi : i < 16) :
    (dec5 cfg b).getD i Pixel.clear =
      { opaqueColour cfg b i with
        a := BitVec.ofNat 8
          ((alphaPalette (b.getD 0 0).toNat (b.getD 1 0).toNat).getD (bitField (le (slice b 2 6)) (3 * i) 3) 0) } :=
  getD_map_range _ _ hi

/-- The explicit alpha of pixel i is a nibble of byte i / 2, the even pixel's the low one (R156). -/
theorem alphaNibble_eq (b : List Byte) (hi : i < 16) :
    bitField (le (slice b 0 8)) (4 * i) 4 = (b.getD (i / 2) 0).toNat / (if i % 2 = 0 then 1 else 16) % 16 := by
  rw [show 4 * i = 8 * (i / 2) + 4 * (i % 2) by omega, bitField_le _ (by omega), slice_getD b 0 (by omega), Nat.zero_add, bitField]
  rcases Nat.mod_two_eq_zero_or_one i with heven | hodd
  · rw [heven]
    rfl
  · rw [hodd]
    rfl

/-- The bits of a DXT5 alpha index in bytes 2 to 7 (R157). -/
theorem alphaIndex_testBit (b : List Byte) (hi : i < 16) (hn : n < 3) :
    (bitField (le (slice b 2 6)) (3 * i) 3).testBit n = (b.getD (2 + (3 * i + n) / 8) 0).toNat.testBit ((3 * i + n) % 8) := by
  rw [bitField_testBit, decide_eq_true hn, Bool.true_and, le_testBit, slice_getD b 2 (by omega)]

/-! ## What the decoders depend on (section 6) -/

variable {cfg' : Config}

theorem palette4_congr (hexpand : cfg.expand565 = cfg'.expand565) : palette4 cfg = palette4 cfg' := by
  funext c0 c1
  rw [palette4, palette4, hexpand]

theorem palette1_congr (hexpand : cfg.expand565 = cfg'.expand565) (htie : cfg.blendTie = cfg'.blendTie) :
    palette1 cfg = palette1 cfg' := by
  funext c0 c1
  rw [palette1, palette1, hexpand, htie]

theorem opaqueColour_congr (hexpand : cfg.expand565 = cfg'.expand565) : opaqueColour cfg = opaqueColour cfg' := by
  funext b i
  rw [opaqueColour, opaqueColour, palette4_congr hexpand]

/-- A decoder reads EXPAND565, and that of DXT1 also BLEND_TIE. -/
theorem decodeBlock_congr {kind : BlockKind} (hexpand : cfg.expand565 = cfg'.expand565)
    (htie : kind = .dxt1 → cfg.blendTie = cfg'.blendTie) : decodeBlock cfg kind = decodeBlock cfg' kind := by
  funext b
  cases kind with
  | dxt1 => rw [decodeBlock, decodeBlock, dec1, dec1, palette1_congr hexpand (htie rfl)]
  | dxt3 => rw [decodeBlock, decodeBlock, dec3, dec3, opaqueColour_congr hexpand]
  | dxt5 => rw [decodeBlock, decodeBlock, dec5, dec5, opaqueColour_congr hexpand]

variable {s s' : State} {kind : BlockKind}

theorem blockOut_congr (hdecode : decodeBlock s.cfg kind = decodeBlock s'.cfg kind) (hbytes : s.cfg.outOrder = s'.cfg.outOrder)
    (hsrc : ∀ j < blockBytes kind, s.mem.read (s.srcAddr.toNat + j) = s'.mem.read (s'.srcAddr.toNat + j)) :
    blockOut kind s = blockOut kind s' := by
  have hsource : s.source (blockBytes kind) = s'.source (blockBytes kind) :=
    List.map_congr_left fun j hj => hsrc j (List.mem_range.mp hj)
  rw [blockOut, blockOut, hdecode, hbytes, hsource]

theorem blockMem_read {j : Nat} (kind : BlockKind) (s : State) (hj : j < 64) :
    (blockMem kind s).read (s.dstAddr.toNat + j) = (blockOut kind s).getD j unlistedByte := by
  rw [blockMem, Memory.read_writeBytes, blockOut_length, if_pos (by omega), Nat.add_sub_cancel_left]

/-- Every byte of the image belongs to a pixel. -/
theorem exists_pixel_of_lt {w h j : Nat} (hj : j < w * h * 4) :
    ∃ x y c, x < w ∧ y < h ∧ c < 4 ∧ j = ((h - 1 - y) * w + x) * 4 + c := by
  have hw : 0 < w := Nat.pos_of_ne_zero fun hw => by simp [hw] at hj
  have hrow : j / 4 / w < h := Nat.div_lt_of_lt_mul (by omega)
  have hplace := Nat.div_add_mod' (j / 4) w
  have hcol := Nat.mod_lt (j / 4) hw
  generalize j / 4 / w = row at hrow hplace
  refine ⟨j / 4 % w, h - 1 - row, j % 4, hcol, by omega, Nat.mod_lt _ (by decide), ?_⟩
  rw [show h - 1 - (h - 1 - row) = row by omega, hplace]
  omega

theorem surfaceMem_congr {j : Nat} (hw : s.width = s'.width) (hh : s.height = s'.height)
    (hdecode : decodeBlock s.cfg kind = decodeBlock s'.cfg kind) (hbytes : s.cfg.outOrder = s'.cfg.outOrder)
    (hsrc : ∀ j < surfaceSrcNeed kind s, s.mem.read (s.srcAddr.toNat + j) = s'.mem.read (s'.srcAddr.toNat + j))
    (hj : j < surfaceDstNeed s) :
    (surfaceMem kind s).read (s.dstAddr.toNat + j) = (surfaceMem kind s').read (s'.dstAddr.toNat + j) := by
  obtain ⟨x, y, c, hx, hy, hc, rfl⟩ := exists_pixel_of_lt hj
  have hblock := block_end_le_surfaceSrcNeed kind hx hy
  have hread := surfaceMem_read kind s' (hw ▸ hx) (hh ▸ hy) hc
  rw [← hw, ← hh] at hread
  rw [← Nat.add_assoc, ← Nat.add_assoc, surfaceMem_read kind s hx hy hc, hread, hdecode, hbytes]
  congr 4
  refine List.map_congr_left fun d hd => ?_
  have := List.mem_range.mp hd
  rw [Nat.add_assoc, Nat.add_assoc]
  exact hsrc _ (by omega)

end Sys2Proof.Machine
end

section
namespace Sys2Proof.Proofs

open Sys2Proof Sys2Proof.Machine

/-- Settles O43: each field of the block lies in the bytes the statement names. -/
theorem blockPixelsByTheirBytes : Obligations.BlockPixelsByTheirBytes := by
  intro c b r k hr hk at_ i
  have hi : i < 16 := by omega
  refine ⟨fun _ => ?_, fun _ => ⟨?_, bitField (le (slice b 2 6)) (3 * i) 3, bitField_lt _ _ _, fun n hn =>
    alphaIndex_testBit b hi hn, ?_⟩⟩
  · rw [decodeBlock, dec1_getD c b hi, le_slice_two, le_slice_two, colourIndex_slice b 4 hr hk]
  · rw [decodeBlock, dec3_getD c b hi, alphaNibble_eq b hi, opaqueColour_eq c b hr hk]
  · rw [decodeBlock, dec5_getD c b hi, opaqueColour_eq c b hr hk]

/-- Settles O47: the output of a block and each pixel of a surface are the decoder's, which reads only the source bytes and its
parameters. -/
theorem decodersArePureFunctions : Obligations.DecodersArePureFunctions := by
  show ∀ i ∈ blockKinds.map blockInstr ++ blockKinds.map surfaceInstr, _
  intro i hi s s' t t' hdims hexpand horder htie hsrc hexec herr hexec' herr' j hj
  rcases List.mem_append.mp hi with hblock | hsurface
  · obtain ⟨k, -, rfl⟩ := List.mem_map.mp hblock
    obtain ⟨hns, hnd⟩ := needs_blockInstr k s
    rw [hns] at hsrc
    rw [hnd] at hj
    have hdecode := decodeBlock_congr hexpand fun hk : k = .dxt1 => htie (.inl (congrArg blockInstr hk))
    rw [mem_of_exec hexec herr, mem_of_exec hexec' herr', storedMem_blockInstr, storedMem_blockInstr, blockMem_read k s hj,
      blockMem_read k s' hj, blockOut_congr hdecode horder hsrc]
  · obtain ⟨k, -, rfl⟩ := List.mem_map.mp hsurface
    obtain ⟨hns, hnd⟩ := needs_surfaceInstr k s
    rw [hns] at hsrc
    rw [hnd] at hj
    have hdecode := decodeBlock_congr hexpand fun hk : k = .dxt1 => htie (.inr (congrArg surfaceInstr hk))
    obtain ⟨hw, hh⟩ := hdims (by cases k <;> rfl)
    rw [mem_of_exec hexec herr, mem_of_exec hexec' herr', storedMem_surfaceInstr, storedMem_surfaceInstr]
    exact surfaceMem_congr hw hh hdecode horder hsrc hj

end Sys2Proof.Proofs
end
